-- ==== Sys2Proof/Word.lean ====
section
/-! DEFINITION. The word of the RLFO-SVF core: 32 bits, numbered from 0 (00_scope R8, R9). -/

namespace Sys2Proof

/-- A 32-bit word: a command word, an operand word, a sample word or a binary32 register (00_scope R8). -/
abbrev Word := BitVec 32

/-- One byte of a byte transport outside the core (20_memory R49). -/
abbrev Byte := BitVec 8

end Sys2Proof
end

