-- ==== Sys2Proof/Machine/F32.lean ====
section
/-! DEFINITION. The floating-point primitives of 00_scope R11: IEEE 754 binary32, round to nearest with ties to
even, one rounding per operation, subnormals kept.

A finite binary32 value is an integer multiple of 2^-149. The functions below compute in that unit with exact
integers and round once, at the end (assumption log 13). A NaN result is `NAN_RESULT`, which R6 leaves open: each
arithmetic operation takes the pattern to use as its first argument (assumption log 3). -/

namespace Sys2Proof.F32

/-- +0.0. -/
abbrev zero : Word := 0x00000000
/-- -0.0. -/
abbrev negZero : Word := 0x80000000
/-- 1.0 (R11). -/
abbrev one : Word := 0x3F800000
/-- +infinity. -/
abbrev inf : Word := 0x7F800000
/-- 2^-31 (43_parameters R108). -/
abbrev twoPowNeg31 : Word := 0x30000000
/-- `TWO_PI` of 00_scope R12. -/
abbrev twoPi : Word := 0x40C90FDB

/-- The value 1.0 in units of 2^-149. -/
abbrev unit : Nat := 2 ^ 149
/-- 2^128, the value at which rounding overflows, in units of 2^-149. -/
abbrev overflow : Nat := 2 ^ 277

/-- The sign bit, bit 31. -/
def sign (w : Word) : Bool := decide (2 ^ 31 ≤ w.toNat)
/-- The exponent field, bits 30:23. -/
def expo (w : Word) : Nat := w.toNat / 2 ^ 23 % 2 ^ 8
/-- The fraction field, bits 22:0. -/
def frac (w : Word) : Nat := w.toNat % 2 ^ 23

def isNaN (w : Word) : Bool := decide (expo w = 255) && decide (frac w ≠ 0)
def isInf (w : Word) : Bool := decide (expo w = 255) && decide (frac w = 0)
def isFinite (w : Word) : Bool := decide (expo w ≠ 255)
/-- +0.0 or -0.0. -/
def isZero (w : Word) : Bool := decide (w.toNat % 2 ^ 31 = 0)
/-- A quiet NaN: a NaN whose top fraction bit is 1. -/
def isQuietNaN (w : Word) : Bool := decide (expo w = 255) && decide (2 ^ 22 ≤ frac w)

/-- The magnitude, in units of 2^-149, that magnitude bits 30:0 stand for. An infinity's bits give `overflow`, above
every finite value. -/
def magOfBits (m : Nat) : Nat :=
  if m / 2 ^ 23 = 0 then m else (2 ^ 23 + m % 2 ^ 23) * 2 ^ (m / 2 ^ 23 - 1)

/-- The magnitude of a word that is no NaN, in units of 2^-149. -/
def mag (w : Word) : Nat := magOfBits (w.toNat % 2 ^ 31)

/-- The value of a word that is no NaN, in units of 2^-149. -/
def val (w : Word) : Int := if sign w then -(mag w : Int) else (mag w : Int)

/-- Division rounded to the nearest integer, ties to even. -/
def divNearestEven (n d : Nat) : Nat :=
  let q := n / d
  let r := n % d
  if 2 * r < d then q else if d < 2 * r then q + 1 else q + q % 2

/-- The exponent at which the magnitude `n / d` keeps 24 significant bits: its unit in the last place is
2^`scale` (2^0 for subnormals). -/
def scale (n d : Nat) : Nat := Nat.log2 (n / d) - 23

/-- The magnitude bits 30:0 of the binary32 value nearest to `n / d` units of 2^-149 (`d` not 0); infinity where
the rounded value reaches 2^128. -/
def roundMag (n d : Nat) : Nat :=
  let k := scale n d
  min (k * 2 ^ 23 + divNearestEven n (d * 2 ^ k)) 0x7F800000

/-- A word from a sign and magnitude bits below 2^31. -/
def pack (neg : Bool) (bits : Nat) : Word := BitVec.ofNat 32 ((if neg then 2 ^ 31 else 0) + bits)

/-- The exact value ±`n / d` units, rounded once to binary32. -/
def round (neg : Bool) (n d : Nat) : Word := pack neg (roundMag n d)

/-- An infinity of the given sign. -/
def infOf (neg : Bool) : Word := pack neg 0x7F800000

/-- Sign inversion, exact. -/
def neg (w : Word) : Word := w ^^^ 0x80000000

/-- `fadd` (R11). An exact sum of zero is +0.0 unless both operands are negative zeros. -/
def add (nan a b : Word) : Word :=
  if isNaN a || isNaN b then nan
  else if isInf a then (if isInf b && (sign a != sign b) then nan else a)
  else if isInf b then b
  else
    let v := val a + val b
    if v = 0 then (if sign a && sign b then negZero else zero)
    else round (decide (v < 0)) v.natAbs 1

/-- `fsub` (R11). -/
def sub (nan a b : Word) : Word := add nan a (neg b)

/-- `fmul` (R11). -/
def mul (nan a b : Word) : Word :=
  let s := sign a != sign b
  if isNaN a || isNaN b then nan
  else if isInf a then (if isZero b then nan else infOf s)
  else if isInf b then (if isZero a then nan else infOf s)
  else round s (mag a * mag b) unit

/-- `fdiv` (R11). -/
def div (nan a b : Word) : Word :=
  let s := sign a != sign b
  if isNaN a || isNaN b then nan
  else if isInf a then (if isInf b then nan else infOf s)
  else if isInf b then pack s 0
  else if isZero b then (if isZero a then nan else infOf s)
  else round s (mag a * unit) (mag b)

/-- `fge` (R11): the ordered comparison a >= b, false if either operand is NaN. -/
def ge (a b : Word) : Bool := !isNaN a && !isNaN b && decide (val b ≤ val a)

/-- The ordered comparison a <= b. -/
def le (a b : Word) : Bool := ge b a

/-- The ordered comparison a < b. -/
def lt (a b : Word) : Bool := !isNaN a && !isNaN b && decide (val a < val b)

/-- `ffloor` (R11): the largest integral value not greater than the operand, exact. An infinity or a NaN is
returned as it stands (assumption log 13). A zero keeps its sign. -/
def floor (w : Word) : Word :=
  if !isFinite w || isZero w then w
  else
    let m := mag w
    if sign w then round true ((m + (unit - 1)) / unit * unit) 1
    else round false (m / unit * unit) 1

/-- `i32_to_f32` (R11): a 32-bit two's-complement integer, rounded to binary32. -/
def ofI32 (w : Word) : Word := round (decide (w.toInt < 0)) (w.toInt.natAbs * unit) 1

end Sys2Proof.F32
end

