-- ==== Sys2Proof/Config.lean ====
section
/-! DEFINITION. What an implementation fixes (00_scope R6, 10_state R40) and the free values the spec leaves open.
The free values are constants with no body: nothing proves a value of them. -/

namespace Sys2Proof

/-- The configuration constants of 00_scope R6. The random table, which R6 lists beside them, is the core's
memory and stands in State (20_memory R45). -/
structure Config where
  /-- `SAMPLE_RATE`, samples per second. -/
  sampleRate : Word
  /-- `CENTRE_FREQUENCY`, Hz. -/
  centreFrequency : Word
  /-- `MAX_FREQUENCY_DEVIATION`, Hz. -/
  maxFrequencyDeviation : Word
  /-- `MAX_LFO_RATE`, Hz. -/
  maxLfoRate : Word
  /-- `Q_CONST`. -/
  qConst : Word
  /-- `TABLE_SIZE`. -/
  tableSize : Nat
  /-- `TABLE_MASK`. -/
  tableMask : BitVec 10
  /-- `INIT_FREQUENCY`, F after INIT, Hz; `CENTRE_FREQUENCY` by default (D13; assumption log 21). -/
  initFrequency : Word
  /-- `INIT_DEVIATION`, Hz; OPEN in the spec. -/
  initDeviation : Word
  /-- `INIT_LFO_RATE`, Hz; OPEN in the spec. -/
  initLfoRate : Word
  /-- `MIN_LFO_RATE`; OPEN in the spec and read by no rule (D20). -/
  minLfoRate : Word
  deriving DecidableEq, Repr

/-! ## Free values -/

/-- Free: the bits of the k-th NaN an arithmetic operation produces (R6 `NAN_RESULT`, D5, I1; assumption log 3).
DESIGN CHOICE: a draw for each operation, as D5 allows. -/
opaque Config.nanBits : Nat → Word
/-- Free: `INIT_DEVIATION` (D15, I6; assumption log 4). -/
opaque Config.openInitDeviation : Word
/-- Free: `INIT_LFO_RATE` (D14, I5; assumption log 4). -/
opaque Config.openInitLfoRate : Word
/-- Free: `MIN_LFO_RATE` (D20, I8; assumption log 4). -/
opaque Config.openMinLfoRate : Word
/-- Free: the entries of `RANDOM_TABLE` (D19, I7; assumption log 4). -/
opaque Config.openTable : Nat → Word

/-- `NAN_RESULT` for the k-th operation: any quiet NaN (R6). -/
def Config.nanResult (k : Nat) : Word := Config.nanBits k ||| 0x7FC00000

/-- A free word kept only where it lies in `[lo, hi]` as R7 demands, else +0.0 (assumption log 4). -/
def Config.within (lo hi w : Word) : Word := if F32.le lo w && F32.le w hi then w else F32.zero

/-- Entry `i` of a table whose contents the spec leaves open: any value of [-1.0, 1.0] (R7 a). -/
def Config.randomTable (i : Nat) : Word := Config.within 0xBF800000 F32.one (Config.openTable i)

/-- The configuration with the defaults of R6; its OPEN fields are free within R7 (b) and (d). -/
def Config.default : Config where
  sampleRate := 0x473B8000
  centreFrequency := 0x44960000
  maxFrequencyDeviation := 0x44898000
  maxLfoRate := 0x41A00000
  qConst := 0x3E2E147B
  tableSize := 1024
  tableMask := 0x3FF
  initFrequency := 0x44960000
  initDeviation := Config.within F32.zero 0x44898000 Config.openInitDeviation
  initLfoRate := Config.within F32.zero 0x41A00000 Config.openInitLfoRate
  minLfoRate := Config.openMinLfoRate

end Sys2Proof
end

