-- ==== Sys2Proof/Syntax.lean ====
section
/-! DEFINITION. The commands of RLFO-CMD1 as syntax (30_encoding R61 to R70). -/

namespace Sys2Proof

/-- The registers READ_REG can name, in the order of 10_state R38. -/
inductive Reg where
  | status | phase | rate | tableIndex | d1 | d2 | q | f | h | b | l | n | depthKnob | timeKnob | effectDepth | f1
  deriving DecidableEq, Repr

/-- The register number of 10_state R38, bits 3:0 of a READ_REG header. -/
def Reg.number : Reg → BitVec 4
  | .status => 0x0
  | .phase => 0x1
  | .rate => 0x2
  | .tableIndex => 0x3
  | .d1 => 0x4
  | .d2 => 0x5
  | .q => 0x6
  | .f => 0x7
  | .h => 0x8
  | .b => 0x9
  | .l => 0xA
  | .n => 0xB
  | .depthKnob => 0xC
  | .timeKnob => 0xD
  | .effectDepth => 0xE
  | .f1 => 0xF

/-- A command, one constructor for each row of the opcode table, with its operand words (30_encoding R63 to R66). -/
inductive Instr where
  /-- INIT (R63): two operand words, taken and ignored. -/
  | init (platformId apiVersion : Word)
  /-- SET_PARAM with PIDX 0 (R64): the raw Q31 value. -/
  | setParamTime (raw : Word)
  /-- SET_PARAM with PIDX 1 (R64): the raw Q31 value. -/
  | setParamDepth (raw : Word)
  /-- SET_PARAM with PIDX 2 to 255 (R64, R74): names no parameter. -/
  | setParamNone (pidx : BitVec 8) (raw : Word)
  /-- PROCESS (R65): the frame count. -/
  | process (frames : Word)
  /-- READ_REG (R66): the register. -/
  | readReg (reg : Reg)
  deriving DecidableEq, Repr

end Sys2Proof
end

