-- ==== Sys2Proof/WellFormed.lean ====
section
/-! DEFINITION. Which terms of the syntax, and which configurations, are well formed. -/

namespace Sys2Proof

/-- The forms that have an encoding of their own: SET_PARAM_NONE holds a PIDX of 2 to 255, since 0 and 1 are the
TIME and DEPTH rows (30_encoding R70). Every other field of the syntax admits only legal values. -/
def Instr.wellFormed : Instr → Bool
  | .init _ _ => true
  | .setParamTime _ => true
  | .setParamDepth _ => true
  | .setParamNone pidx _ => decide (2 ≤ pidx.toNat)
  | .process _ => true
  | .readReg _ => true

/-! ## Configurations (00_scope R7) -/

/-- `F1max` of R7 (g): what rule R90 gives at the largest reachable F. The NaN argument is the pattern a NaN would
take; a NaN fails the checks below whatever it is. -/
def Config.f1Max (c : Config) : Word :=
  let nan := 0x7FC00000
  F32.div nan (F32.mul nan F32.twoPi (F32.add nan c.centreFrequency c.maxFrequencyDeviation)) c.sampleRate

/-- R7 (b): `MAX_FREQUENCY_DEVIATION <= CENTRE_FREQUENCY` and `0 <= INIT_DEVIATION <= MAX_FREQUENCY_DEVIATION`. -/
def Config.deviationOk (c : Config) : Bool :=
  F32.le c.maxFrequencyDeviation c.centreFrequency && F32.le F32.zero c.initDeviation
    && F32.le c.initDeviation c.maxFrequencyDeviation

/-- R7 (c): `0 < Q_CONST < 2`. -/
def Config.qOk (c : Config) : Bool := F32.lt F32.zero c.qConst && F32.lt c.qConst 0x40000000

/-- R7 (d): `0 <= INIT_LFO_RATE <= MAX_LFO_RATE` and `MAX_LFO_RATE >= 0`. -/
def Config.rateOk (c : Config) : Bool :=
  F32.le F32.zero c.initLfoRate && F32.le c.initLfoRate c.maxLfoRate && F32.ge c.maxLfoRate F32.zero

/-- R7 (e): `SAMPLE_RATE > 0`, finite. -/
def Config.sampleRateOk (c : Config) : Bool := F32.lt F32.zero c.sampleRate && F32.isFinite c.sampleRate

/-- R7 (f): `TABLE_SIZE = 1024` and `TABLE_MASK = 1023`. -/
def Config.tableShapeOk (c : Config) : Bool := decide (c.tableSize = 1024) && decide (c.tableMask = 0x3FF)

/-- R7 (g): `F1max² + 2·Q_CONST·F1max < 4` and `Q_CONST·F1max < 2`, in exact arithmetic (assumption log 14). -/
def Config.convergenceOk (c : Config) : Bool :=
  F32.isFinite c.f1Max && F32.isFinite c.qConst
    && decide (F32.val c.f1Max * F32.val c.f1Max + 2 * (F32.val c.qConst * F32.val c.f1Max)
        < 4 * ((F32.unit : Int) * F32.unit))
    && decide (F32.val c.qConst * F32.val c.f1Max < 2 * ((F32.unit : Int) * F32.unit))

/-- The conditions (b) to (g) of R7; (a), on the random table, is `Memory.inRange`. -/
def Config.wellFormed (c : Config) : Bool :=
  c.deviationOk && c.qOk && c.rateOk && c.sampleRateOk && c.tableShapeOk && c.convergenceOk

end Sys2Proof
end

