-- ==== Sys2Proof/Machine/State.lean ====
section
/-! DEFINITION. The state of the RLFO-SVF core (10_state R20 to R44, 20_memory R45) as plain data, and power-on reset
(70_reset_and_hazards R135). -/

namespace Sys2Proof.Machine

/-- The lifecycle register MODE (R20). -/
inductive Mode where
  /-- No INIT since power-on. -/
  | uninit
  /-- At least one INIT, no fault. -/
  | ready
  /-- A fault was raised. -/
  | halted
  deriving DecidableEq, Repr

/-- The values FAULT_CAUSE takes (60_exceptions R121); codes 5 to 15 are never raised. -/
inductive FaultCause where
  | none | notInitialized | illegalCommand | rawOutOfRange | unwrittenRead
  deriving DecidableEq, Repr

/-- The random table: (entry index, 32-bit word) cells, the one memory of the core (20_memory R45). The smallest
unit the core addresses is one whole entry (R48, R49), so a cell holds a word (assumption log 6). -/
abbrev Memory := List (Nat × Word)

/-- What an entry that no cell lists reads as: RANDOM_TABLE is OPEN (00_scope R6), so a free value of [-1.0, 1.0]. -/
def Memory.unlisted (i : Nat) : Word := Config.randomTable i

/-- The indices rise strictly and start at `lo` or above. -/
def Memory.rising : Nat → Memory → Bool
  | _, [] => true
  | lo, (i, _) :: cells => decide (lo ≤ i) && Memory.rising (i + 1) cells

/-- The canonical form: indices strictly rising and below 1024 (R53), and no cell that holds what an unlisted entry
reads as, so that equal tables are equal data. -/
def Memory.wf (m : Memory) : Bool :=
  Memory.rising 0 m && m.all fun cell => decide (cell.1 < 1024) && decide (cell.2 ≠ Memory.unlisted cell.1)

/-- Why the machine stops with a fault: it never does. Each fault of the spec (60_exceptions R121) is a next state,
HALTED with its cause (R122), and the core takes no other stop. Safe: nothing is left out by a stop. -/
inductive Fault where
  deriving DecidableEq, Repr

/-- Why the model refuses. -/
inductive Refusal where
  /-- Raised by an arm of `exec` whose instruction has no meaning yet; no arm does. Safe. -/
  | notModelled (mnemonic : String)
  /-- Raised by `powerOn`, for a configuration or a table that breaks 00_scope R7, as that rule asks. Safe. -/
  | illFormedConfiguration
  deriving DecidableEq, Repr

structure State where
  /-- The configuration constants (R40). -/
  cfg : Config
  /-- The random table (20_memory R45). -/
  table : Memory
  /-- MODE (R20). -/
  mode : Mode
  /-- FAULT_CAUSE (R37). -/
  faultCause : FaultCause
  /-- PHASE (R23), binary32. -/
  phase : Word
  /-- RATE (R24), binary32. -/
  rate : Word
  /-- TABLE_INDEX (R25). -/
  tableIndex : BitVec 10
  /-- D1 (R26), binary32. -/
  d1 : Word
  /-- D2 (R27), binary32. -/
  d2 : Word
  /-- Q (R29), binary32. -/
  q : Word
  /-- F (R30), binary32. -/
  f : Word
  /-- The high-pass tap H (R31), binary32. -/
  h : Word
  /-- The band-pass tap B (R31), binary32. -/
  b : Word
  /-- The low-pass tap L (R31), binary32. -/
  l : Word
  /-- The notch tap N (R31), binary32. -/
  n : Word
  /-- F1 (R32), binary32. -/
  f1 : Word
  /-- DEPTH_KNOB (R33), binary32, or the spec's own "unwritten (no value)" (R42, 44_system R118). -/
  depthKnob : Option Word
  /-- TIME_KNOB (R34), binary32, or the spec's own "unwritten (no value)" (R42, 44_system R118). -/
  timeKnob : Option Word
  /-- EFFECT_DEPTH (R35), binary32. -/
  effectDepth : Word
  /-- TKW (R35). -/
  tkw : Bool
  /-- DKW (R35). -/
  dkw : Bool
  /-- FRAMES_LEFT (R43); 0 when no PROCESS is running (assumption log 12). -/
  framesLeft : BitVec 32
  /-- WRAP (R43); false outside a frame (assumption log 12). -/
  wrap : Bool
  /-- The command port, oldest word first (20_memory R45). -/
  cmdPort : List Word
  /-- The sample input stream, oldest word first. -/
  sampleIn : List Word
  /-- The sample output stream, oldest word first. -/
  sampleOut : List Word
  /-- How many words of the sample output stream, from its oldest on, the host takes as they come: the host's part of
  that stream (20_memory R60; assumption log 9). -/
  outTaken : Nat
  /-- The readback port, oldest word first. -/
  readback : List Word
  /-- The model's own counter, not the spec's: the number of the next free NaN result (assumption log 3). -/
  nanDraws : Nat
  deriving DecidableEq, Repr

/-- Power-on reset (70_reset_and_hazards R135): MODE, FAULT_CAUSE, TKW, DKW and the ports as the spec says. DESIGN
CHOICE (assumption log 1, 2, 9, 12): every register the spec leaves unspecified is +0.0 or 0, the knobs are unwritten, and
the host has not yet undertaken to take an output word. -/
def State.reset : State where
  cfg := Config.default
  table := []
  mode := .uninit
  faultCause := .none
  phase := 0
  rate := 0
  tableIndex := 0
  d1 := 0
  d2 := 0
  q := 0
  f := 0
  h := 0
  b := 0
  l := 0
  n := 0
  f1 := 0
  depthKnob := none
  timeKnob := none
  effectDepth := 0
  tkw := false
  dkw := false
  framesLeft := 0
  wrap := false
  cmdPort := []
  sampleIn := []
  sampleOut := []
  outTaken := 0
  readback := []
  nanDraws := 0

end Sys2Proof.Machine
end

