-- ==== Sys2Proof/Machine/Flags.lean ====
section
/-! DEFINITION. The STATUS register and the codes it reports (10_state R36, R37; 60_exceptions R121). The core has no
condition codes (R44): READY, HALTED, TKW and DKW are its only flags, beside the wrap event of a frame. -/

namespace Sys2Proof.Machine

/-- The 4-bit cause code (60_exceptions R121). -/
def FaultCause.code : FaultCause → BitVec 4
  | .none => 0
  | .notInitialized => 1
  | .illegalCommand => 2
  | .rawOutOfRange => 3
  | .unwrittenRead => 4

/-- STATUS bit 0 (R36). -/
def State.readyFlag (s : State) : Bool := decide (s.mode = .ready)

/-- STATUS bit 1 (R36). -/
def State.haltedFlag (s : State) : Bool := decide (s.mode = .halted)

/-- STATUS (R36): READY, HALTED, TKW, DKW in bits 0 to 3, CAUSE in bits 7:4, zero above. -/
def State.status (s : State) : Word :=
  (0 : BitVec 24) ++ s.faultCause.code
    ++ (BitVec.ofBool s.dkw ++ BitVec.ofBool s.tkw ++ BitVec.ofBool s.haltedFlag ++ BitVec.ofBool s.readyFlag)

end Sys2Proof.Machine
end

