-- ==== Sys2Proof/Machine/Operands.lean ====
section
/-! DEFINITION. The operand forms: the raw parameter value (30_encoding R67, 43_parameters R108, R112) and the frame
count (30_encoding R68). Register numbers are resolved by the decoder (R69). -/

namespace Sys2Proof.Machine

/-- `RAW[31] = 1`: a negative raw value (43_parameters R112). -/
def rawNegative (raw : Word) : Bool := decide (2 ^ 31 ≤ raw.toNat)

/-- RAW_TO_UNIT (43_parameters R108): the Q31 value as binary32. `nan` is the pattern a NaN product would take. -/
def rawToUnit (nan raw : Word) : Word := F32.mul nan (F32.ofI32 raw) F32.twoPowNeg31

/-- FRAMES as a count (30_encoding R68): unsigned, 0 to 4294967295. -/
def frameCount (frames : Word) : Nat := frames.toNat

end Sys2Proof.Machine
end

