-- ==== Sys2Proof/Machine/Ops.lean ====
section
/-! DEFINITION. The named operations over the registers, the table, the streams and the ports (00_scope R10), and
fault entry (60_exceptions R122). -/

namespace Sys2Proof.Machine

/-- The outcome of a step or a meaning. -/
abbrev Outcome := Host.Outcome State Fault Refusal

/-! ## The table (20_memory R46) -/

/-- The word a table holds at entry `i`. -/
def Memory.read : Memory → Nat → Word
  | [], i => Memory.unlisted i
  | (j, w) :: cells, i => if i = j then w else Memory.read cells i

/-- `MemRead(TABLE, i, 4)` (R46). The index has 10 bits, so no read is out of range (R48). -/
def State.memRead (s : State) (i : BitVec 10) : Word := Memory.read s.table i.toNat

/-! ## Free NaN results (assumption log 3) -/

/-- `NAN_RESULT` for the k-th operation from here. -/
def State.nan (s : State) (k : Nat) : Word := Config.nanResult (s.nanDraws + k)

/-- The state after `k` arithmetic operations have each had a draw of their own. -/
def State.drew (s : State) (k : Nat) : State := { s with nanDraws := s.nanDraws + k }

/-! ## Ports and streams (00_scope R10) -/

/-- `Respond(w)`: one word on the readback port. -/
def State.respond (s : State) (w : Word) : State := { s with readback := s.readback ++ [w] }

/-- `StreamOut` of each word in turn. -/
def State.streamOut (s : State) (ws : List Word) : State := { s with sampleOut := s.sampleOut ++ ws }

/-- The host takes every word on the sample output stream (20_memory R60). -/
def State.outputTaken (s : State) : Bool := decide (s.sampleOut.length ≤ s.outTaken)

/-! ## Fault entry (60_exceptions R122) -/

/-- `raise Fault(c)`: writes FAULT_CAUSE and MODE and nothing else. There is no handler and no return but power-on
reset (R122, R128). -/
def State.raiseFault (s : State) (c : FaultCause) : State := { s with faultCause := c, mode := .halted }

/-! ## Register readback (10_state R38) -/

/-- The word READ_REG returns for a register; `none` for a knob that holds no value (44_system R118). -/
def State.readRegister (s : State) : Reg → Option Word
  | .status => some s.status
  | .phase => some s.phase
  | .rate => some s.rate
  | .tableIndex => some (s.tableIndex.zeroExtend 32)
  | .d1 => some s.d1
  | .d2 => some s.d2
  | .q => some s.q
  | .f => some s.f
  | .h => some s.h
  | .b => some s.b
  | .l => some s.l
  | .n => some s.n
  | .depthKnob => s.depthKnob
  | .timeKnob => s.timeKnob
  | .effectDepth => some s.effectDepth
  | .f1 => some s.f1

/-! ## Lifecycle (60_exceptions R123, R127, R128) -/

/-- The guard of every command but INIT and READ_REG 0x00: in HALTED the command is discarded with no effect (R128),
in UNINIT it raises NOT_INITIALIZED (R123), in READY it runs. -/
def State.whenReady (s : State) (run : State) : Outcome :=
  match s.mode with
  | .halted => .next s
  | .uninit => .next (s.raiseFault .notInitialized)
  | .ready => .next run

end Sys2Proof.Machine
end

