-- ==== Sys2Proof/Machine/Parameters.lean ====
section
/-! DEFINITION. SET_PARAM (43_parameters R108 to R114). -/

namespace Sys2Proof.Machine

/-- The writes of SET_PARAM TIME on a raw value in range (R109). -/
def State.setTime (s : State) (raw : Word) : State :=
  let v := rawToUnit (s.nan 0) raw
  let s := { s with timeKnob := some v, tkw := true, rate := F32.mul (s.nan 1) s.cfg.maxLfoRate v }
  s.drew 2

/-- The writes of SET_PARAM DEPTH on a raw value in range (R110). -/
def State.setDepth (s : State) (raw : Word) : State :=
  let v := rawToUnit (s.nan 0) raw
  let s := { s with depthKnob := some v, dkw := true, effectDepth := F32.mul (s.nan 1) v s.cfg.maxFrequencyDeviation }
  s.drew 2

/-- SET_PARAM TIME (R109): the range check of R112 follows the lifecycle check (60_exceptions R127). -/
def execSetParamTime (raw : Word) (s : State) : Outcome :=
  s.whenReady (if rawNegative raw then s.raiseFault .rawOutOfRange else s.setTime raw)

/-- SET_PARAM DEPTH (R110). -/
def execSetParamDepth (raw : Word) (s : State) : Outcome :=
  s.whenReady (if rawNegative raw then s.raiseFault .rawOutOfRange else s.setDepth raw)

/-- SET_PARAM with no parameter (R111): no effect but the lifecycle check; neither operand is examined. -/
def execSetParamNone (_pidx : BitVec 8) (_raw : Word) (s : State) : Outcome := s.whenReady s

end Sys2Proof.Machine
end

