-- ==== Sys2Proof/Machine/Filter.lean ====
section
/-! DEFINITION. The coefficient derivation and the Chamberlin filter step (41_filter R90, R91), internal operations of
PROCESS. -/

namespace Sys2Proof.Machine

/-- COEF_DERIVE (R90). -/
def State.coefDerive (s : State) : State :=
  let s := { s with f1 := F32.div (s.nan 1) (F32.mul (s.nan 0) F32.twoPi s.f) s.cfg.sampleRate }
  s.drew 2

/-- SVF_STEP (R91). The output of the step is the low-pass tap L (R92). -/
def State.svfStep (s : State) (x : Word) : State :=
  let l := F32.add (s.nan 1) s.d2 (F32.mul (s.nan 0) s.f1 s.d1)
  let h := F32.sub (s.nan 4) (F32.sub (s.nan 2) x l) (F32.mul (s.nan 3) s.q s.d1)
  let b := F32.add (s.nan 6) (F32.mul (s.nan 5) s.f1 h) s.d1
  let n := F32.add (s.nan 7) h l
  let s := { s with l := l, h := h, b := b, n := n, d1 := b, d2 := l }
  s.drew 8

end Sys2Proof.Machine
end

