-- ==== Sys2Proof/Machine/Oscillator.lean ====
section
/-! DEFINITION. The stepped random oscillator (40_oscillator R80 to R84), internal operations of PROCESS. -/

namespace Sys2Proof.Machine

/-- OSC_ADVANCE (R80). -/
def State.oscAdvance (s : State) : State :=
  let inc := F32.div (s.nan 0) s.rate s.cfg.sampleRate
  let s := { s with phase := F32.add (s.nan 1) s.phase inc }
  s.drew 2

/-- WRAP_TEST (R81). -/
def State.wrapTest (s : State) : State :=
  let w := F32.ge s.phase F32.one
  let s := { s with wrap := w, phase := if w then F32.sub (s.nan 0) s.phase (F32.floor s.phase) else s.phase }
  s.drew 1

/-- WRAP_DRAW (R82): on a wrap, the entry at the index before INDEX_STEP sets F. -/
def State.wrapDraw (s : State) : State :=
  if s.wrap then
    let r := s.memRead s.tableIndex
    let s := { s with f := F32.add (s.nan 1) s.cfg.centreFrequency (F32.mul (s.nan 0) r s.effectDepth) }
    s.drew 2
  else s

/-- INDEX_STEP (R83). -/
def State.indexStep (s : State) : State :=
  if s.wrap then { s with tableIndex := (s.tableIndex + 1) &&& s.cfg.tableMask } else s

/-- The oscillator's part of a frame, in the order of 42_process R101, step 2. -/
def State.oscillate (s : State) : State := s.oscAdvance.wrapTest.wrapDraw.indexStep

end Sys2Proof.Machine
end

