-- ==== Sys2Proof/Machine/Process.lean ====
section
/-! DEFINITION. PROCESS and its frame step (42_process R100 to R107). -/

namespace Sys2Proof.Machine

/-- The registers after one frame whose primary input is `mL` (R101, steps 2 to 5). The wrap event does not outlive
its frame (10_state R43). -/
def State.frameRegisters (s : State) (mL : Word) : State :=
  { (s.oscillate.coefDerive.svfStep mL) with wrap := false }

/-- FRAME_STEP (R101) on the four words of one frame, already taken from the stream: the main-right word is discarded
(R103), L goes to both main slots (R104), the sub words pass through (R102). -/
def State.frameStep (s : State) (mL _mR sL sR : Word) : State :=
  let s := s.frameRegisters mL
  s.streamOut [s.l, s.l, sL, sR]

/-- The body of R100's loop: a frame's four words are taken from the stream, which keeps `rest`, the frame step runs
and FRAMES_LEFT counts down. -/
def State.runFrame (s : State) (mL mR sL sR : Word) (rest : List Word) : State :=
  let t := ({ s with sampleIn := rest } : State).frameStep mL mR sL sR
  { t with framesLeft := t.framesLeft - 1 }

/-- The frame loop of R100, at most `k` frames: as long as the next frame's four words are there. A frame whose words
have not all arrived is not begun, and the core waits (20_memory R60; assumption log 7). -/
def runFrames : Nat → State → State
  | 0, s => s
  | k + 1, s =>
    match s.sampleIn with
    | mL :: mR :: sL :: sR :: rest => runFrames k (s.runFrame mL mR sL sR rest)
    | _ => s

/-- A PROCESS that is running goes on for as many frames as the stream has words for. -/
def State.continueProcess (s : State) : State := runFrames (frameCount s.framesLeft) s

/-- PROCESS (R100). -/
def execProcess (frames : Word) (s : State) : Outcome :=
  s.whenReady ({ s with framesLeft := frames } : State).continueProcess

end Sys2Proof.Machine
end

