-- ==== Sys2Proof/Machine/System.lean ====
section
/-! DEFINITION. INIT and READ_REG (44_system R115 to R119). -/

namespace Sys2Proof.Machine

/-- The writes of INIT (R115, 10_state R42). The streams and ports keep their words. -/
def State.initialise (s : State) : State :=
  { s with
    phase := F32.zero
    tableIndex := 0
    rate := s.cfg.initLfoRate
    f := s.cfg.initFrequency
    effectDepth := s.cfg.initDeviation
    d1 := F32.zero
    d2 := F32.zero
    q := s.cfg.qConst
    h := F32.zero
    b := F32.zero
    l := F32.zero
    n := F32.zero
    f1 := F32.zero
    timeKnob := none
    depthKnob := none
    tkw := false
    dkw := false
    mode := .ready }

/-- INIT (R115): accepted in UNINIT and READY, discarded in HALTED (60_exceptions R128); its operands change nothing. -/
def execInit (_platformId _apiVersion : Word) (s : State) : Outcome :=
  match s.mode with
  | .halted => .next s
  | .uninit => .next s.initialise
  | .ready => .next s.initialise

/-- A register other than STATUS in READY (R116): a knob whose flag is clear, or that holds no value, raises
UNWRITTEN_READ (R118, 60_exceptions R126). -/
def State.readNamed (s : State) (reg : Reg) : State :=
  if reg = .depthKnob ∧ s.dkw = false then s.raiseFault .unwrittenRead
  else if reg = .timeKnob ∧ s.tkw = false then s.raiseFault .unwrittenRead
  else
    match s.readRegister reg with
    | some w => s.respond w
    | none => s.raiseFault .unwrittenRead

/-- READ_REG (R116). STATUS is read in every mode (R117). -/
def execReadReg (reg : Reg) (s : State) : Outcome :=
  if reg = .status then .next (s.respond s.status) else s.whenReady (s.readNamed reg)

end Sys2Proof.Machine
end

