-- ==== Sys2Proof/Machine/Dispatch.lean ====
section
/-! DEFINITION. One arm for each command: its meaning. -/

namespace Sys2Proof.Machine

def exec (i : Instr) (s : State) : Host.Outcome State Fault Refusal :=
  match i with
  | .init platformId apiVersion => Sys2Proof.Machine.execInit platformId apiVersion s
  | .setParamTime raw => Sys2Proof.Machine.execSetParamTime raw s
  | .setParamDepth raw => Sys2Proof.Machine.execSetParamDepth raw s
  | .setParamNone pidx raw => Sys2Proof.Machine.execSetParamNone pidx raw s
  | .process frames => Sys2Proof.Machine.execProcess frames s
  | .readReg reg => Sys2Proof.Machine.execReadReg reg s

end Sys2Proof.Machine
end

