-- ==== Sys2Proof/Decode.lean ====
section
/-! DEFINITION. Decoding of command words, total on any words (30_encoding R61 to R78), and the encoder. -/

namespace Sys2Proof

/-- Why a header is illegal; each raises ILLEGAL_COMMAND (60_exceptions R124). -/
inductive IllegalHeader where
  /-- OP 0x4 to 0xF (R71). -/
  | reservedOpcode
  /-- A non-zero must-be-zero bit (R72). -/
  | reservedBits
  /-- READ_REG with REG 0x10 to 0x1F (R73). -/
  | reservedRegister
  deriving DecidableEq, Repr

/-- What a legal header says (R70). -/
inductive Header where
  | init
  | setParamTime
  | setParamDepth
  | setParamNone (pidx : BitVec 8)
  | process
  | readReg (reg : Reg)
  deriving DecidableEq, Repr

/-- What the words on the command port begin with. -/
inductive Fetched where
  /-- A command, and the words after it. -/
  | command (i : Instr) (rest : List Word)
  /-- An illegal header, taken alone (R71), and the words after it. -/
  | illegal (why : IllegalHeader) (rest : List Word)
  /-- No header, or a legal header whose operand words have not all arrived. -/
  | incomplete
  deriving DecidableEq, Repr

/-- The register of a register number 0x0 to 0xF (10_state R38). -/
def Reg.ofNumber (k : BitVec 4) : Reg :=
  match k.toNat with
  | 0 => .status
  | 1 => .phase
  | 2 => .rate
  | 3 => .tableIndex
  | 4 => .d1
  | 5 => .d2
  | 6 => .q
  | 7 => .f
  | 8 => .h
  | 9 => .b
  | 10 => .l
  | 11 => .n
  | 12 => .depthKnob
  | 13 => .timeKnob
  | 14 => .effectDepth
  | _ => .f1

/-- The decode function of R78 with the fields of R62, each illegal header named. -/
def decodeHeader (h : Word) : Except IllegalHeader Header :=
  match (h.extractLsb' 28 4).toNat with
  | 0 => if h.extractLsb' 0 28 = 0 then .ok .init else .error .reservedBits
  | 1 =>
    if h.extractLsb' 8 20 = 0 then
      if h.extractLsb' 0 8 = 0 then .ok .setParamTime
      else if h.extractLsb' 0 8 = 1 then .ok .setParamDepth
      else .ok (.setParamNone (h.extractLsb' 0 8))
    else .error .reservedBits
  | 2 => if h.extractLsb' 0 28 = 0 then .ok .process else .error .reservedBits
  | 3 =>
    if h.extractLsb' 5 23 = 0 then
      if h.extractLsb' 4 1 = 0 then .ok (.readReg (Reg.ofNumber (h.extractLsb' 0 4))) else .error .reservedRegister
    else .error .reservedBits
  | _ => .error .reservedOpcode

/-- The operand words of a legal header (R61), joined to it; `incomplete` while they have not all arrived. -/
def Header.withOperands : Header → List Word → Fetched
  | .init, platformId :: apiVersion :: rest => .command (.init platformId apiVersion) rest
  | .init, _ => .incomplete
  | .setParamTime, raw :: rest => .command (.setParamTime raw) rest
  | .setParamTime, [] => .incomplete
  | .setParamDepth, raw :: rest => .command (.setParamDepth raw) rest
  | .setParamDepth, [] => .incomplete
  | .setParamNone pidx, raw :: rest => .command (.setParamNone pidx raw) rest
  | .setParamNone _, [] => .incomplete
  | .process, frames :: rest => .command (.process frames) rest
  | .process, [] => .incomplete
  | .readReg reg, rest => .command (.readReg reg) rest

/-- The first command of a sequence of words: the header alone decides whether operand words are taken (R61). -/
def decodeCommand : List Word → Fetched
  | [] => .incomplete
  | h :: ws =>
    match decodeHeader h with
    | .ok hd => hd.withOperands ws
    | .error why => .illegal why ws

/-! ## The encoder (R61 to R66) -/

/-- The header word of a command. -/
def Instr.header : Instr → Word
  | .init _ _ => 0x00000000
  | .setParamTime _ => 0x10000000
  | .setParamDepth _ => 0x10000001
  | .setParamNone pidx _ => 0x10000000 ||| pidx.zeroExtend 32
  | .process _ => 0x20000000
  | .readReg reg => 0x30000000 ||| reg.number.zeroExtend 32

/-- The operand words of a command, first to last. -/
def Instr.operands : Instr → List Word
  | .init platformId apiVersion => [platformId, apiVersion]
  | .setParamTime raw => [raw]
  | .setParamDepth raw => [raw]
  | .setParamNone _ raw => [raw]
  | .process frames => [frames]
  | .readReg _ => []

/-- The words of a command in the order they stand on the command port. -/
def encode (i : Instr) : List Word := i.header :: i.operands

/-! ## Byte transports outside the core (20_memory R49) -/

/-- A word carried as four bytes, little-endian: byte 0 holds `w[7:0]`. -/
def wordToBytes (w : Word) : List Byte :=
  [w.extractLsb' 0 8, w.extractLsb' 8 8, w.extractLsb' 16 8, w.extractLsb' 24 8]

/-- The words of a sequence of bytes, little-endian. A partial word cannot be sent (20_memory R48): up to three
trailing bytes are no word. -/
def wordsOfBytes : List Byte → List Word
  | b0 :: b1 :: b2 :: b3 :: rest => (b3 ++ b2 ++ b1 ++ b0) :: wordsOfBytes rest
  | _ => []

/-- Decoding of a byte transport's bytes. -/
def decodeBytes (bytes : List Byte) : Fetched := decodeCommand (wordsOfBytes bytes)

/-! ## The opcode table's numbering -/

/-- How many operand words the opcode field alone gives a header (R61). -/
def operandCount (h : Word) : Nat :=
  match (h.extractLsb' 28 4).toNat with
  | 0 => 2
  | 1 => 1
  | 2 => 1
  | _ => 0

/-- The words of the command whose first `nbits` bits are `w`: bit 0 is the least significant bit of the header,
the operand words follow from bit 32 on, and every bit above `nbits` is 0. -/
def tableWords (nbits w : Nat) : List Word :=
  let bits := w % 2 ^ nbits
  let h : Word := BitVec.ofNat 32 bits
  h :: match operandCount h with
    | 0 => []
    | 1 => [BitVec.ofNat 32 (bits / 2 ^ 32)]
    | _ => [BitVec.ofNat 32 (bits / 2 ^ 32), BitVec.ofNat 32 (bits / 2 ^ 64)]

/-- The instruction the decoder reads from a word numbered as spec/opcode_table.json numbers it. -/
def decodeTableWord (nbits w : Nat) : Option Instr :=
  match decodeCommand (tableWords nbits w) with
  | .command i _ => some i
  | .illegal _ _ => none
  | .incomplete => none

end Sys2Proof
end

