-- ==== Sys2Proof/Machine/Fetch.lean ====
section
/-! DEFINITION. What the core takes from its ports (30_encoding R61, 60_exceptions R124, R127, R128), and the
placing of a command on the command port. -/

namespace Sys2Proof.Machine

/-- The header word READ_REG 0x00, the only word the core executes in HALTED (R128). -/
abbrev statusHeader : Word := 0x30000000

/-- What the core does next, read from its state. -/
inductive Activity where
  /-- A PROCESS is running: it goes on. -/
  | resume
  /-- A command is taken; the command port keeps `rest`. -/
  | take (i : Instr) (rest : List Word)
  /-- An illegal header is taken alone (R124). -/
  | takeIllegal (rest : List Word)
  /-- In HALTED, one word is taken and discarded (R128). -/
  | discard (rest : List Word)
  /-- No command, or no whole command, has arrived (assumption log 8), or a PROCESS has output words that the host does
  not take (20_memory R60; assumption log 9). -/
  | wait
  deriving DecidableEq, Repr

/-- In UNINIT and READY: decode the header, then take its operand words (R127, 2 and 3). -/
def activityOf : Fetched → Activity
  | .command i rest => .take i rest
  | .illegal _ rest => .takeIllegal rest
  | .incomplete => .wait

/-- In HALTED the core takes single words: READ_REG 0x00 runs, every other word is discarded (R128). -/
def haltedActivity : List Word → Activity
  | [] => .wait
  | w :: rest => if w = statusHeader then .take (.readReg .status) rest else .discard rest

/-- The core accepts no command while a PROCESS runs (20_memory R55): it goes on while frames are left, and then waits
until the host takes its last output word (20_memory R60, 42_process R107, 93 I17). HALTED comes before decoding
(R127, 1). -/
def State.activity (s : State) : Activity :=
  if s.framesLeft ≠ 0 then .resume
  else if s.outputTaken = false then .wait
  else
    match s.mode with
    | .halted => haltedActivity s.cmdPort
    | .uninit => activityOf (decodeCommand s.cmdPort)
    | .ready => activityOf (decodeCommand s.cmdPort)

/-- The state with the words of a command gone from the command port. -/
def State.took (s : State) (rest : List Word) : State := { s with cmdPort := rest }

/-- `words` at the head of the command port, with no PROCESS running, and with the host taking what
the output stream holds, so that they are what is taken next. -/
def State.withCommand (s : State) (words : List Word) : State :=
  { s with cmdPort := words ++ s.cmdPort, framesLeft := 0, outTaken := max s.outTaken s.sampleOut.length }

end Sys2Proof.Machine
end

