-- ==== Sys2Proof/Machine/Step.lean ====
section
/-! DEFINITION. One step of the core: one command, or the next part of a PROCESS that waited for samples. -/

namespace Sys2Proof.Machine

/-- One step. A core that waits stays as it is (20_memory R60, 70_reset_and_hazards R135; assumption log 8). -/
def step (s : State) : Host.Outcome State Fault Refusal :=
  match s.activity with
  | .resume => .next s.continueProcess
  | .take i rest => exec i (s.took rest)
  | .takeIllegal rest => .next ((s.took rest).raiseFault .illegalCommand)
  | .discard rest => .next (s.took rest)
  | .wait => .next s

/-- `s` with the command whose first `nbits` bits are `w` (numbered as spec/opcode_table.json numbers them) as the next
command on the command port (assumption log 10). -/
def State.withFetchWord (s : State) (nbits w : Nat) : State := s.withCommand (tableWords nbits w)

end Sys2Proof.Machine
end

