-- ==== Sys2Proof/Machine/Boot.lean ====
section
/-! DEFINITION. Power-on (70_reset_and_hazards R135, R138; 00_scope R7; 20_memory R47). -/

namespace Sys2Proof.Machine

/-- R7 (a) for the entries a table lists: each lies in [-1.0, 1.0]. An unlisted entry does so by its definition. -/
def Memory.inRange (m : Memory) : Bool := m.all fun cell => F32.le 0xBF800000 cell.2 && F32.le cell.2 F32.one

/-- A table with entry `i` set to `w` before power-on (20_memory R47: no command writes it), in canonical form: a word
equal to the unlisted one leaves no cell. -/
def Memory.place : Memory → Nat → Word → Memory
  | [], i, w => if w = Memory.unlisted i then [] else [(i, w)]
  | (j, v) :: cells, i, w =>
    if i < j then (if w = Memory.unlisted i then (j, v) :: cells else (i, w) :: (j, v) :: cells)
    else if i = j then (if w = Memory.unlisted i then cells else (i, w) :: cells)
    else (j, v) :: Memory.place cells i w

/-- The core right after power-on reset with a configuration and a table (R135, R138). -/
def State.boot (c : Config) (t : Memory) : State := { State.reset with cfg := c, table := t }

/-- Power-on. A configuration that breaks R7 is refused, as R7 asks of a model; the core itself checks nothing later. -/
def powerOn (c : Config) (t : Memory) : Outcome :=
  if c.wellFormed && Memory.inRange t then .next (State.boot c t) else .refused .illFormedConfiguration

/-- The power-on reset of a core in any state (R135): the only way out of HALTED (60_exceptions R128). The
configuration and the table are constant for the life of the core (10_state R40, 20_memory R47). The count of NaN draws
goes on, so that no free value is used twice (assumption log 3, 19). -/
def State.powerOnReset (s : State) : State := { State.boot s.cfg s.table with nanDraws := s.nanDraws }

end Sys2Proof.Machine
end

