-- ==== Sys2Proof/Machine/HostPort.lean ====
section
/-! DEFINITION. What the host does to the core's ports between steps (20_memory R45, R60; 70_reset_and_hazards R144,
R145; assumption log 16). None of it is a step of the core. -/

namespace Sys2Proof.Machine

/-- The host writes words to the command port, in order. -/
def State.sendCommands (s : State) (ws : List Word) : State := { s with cmdPort := s.cmdPort ++ ws }

/-- The host supplies words on the sample input stream, in order. -/
def State.supplySamples (s : State) (ws : List Word) : State := { s with sampleIn := s.sampleIn ++ ws }

/-- The host takes `k` more words of the sample output stream, those there and those to come (20_memory R60). -/
def State.acceptSamples (s : State) (k : Nat) : State := { s with outTaken := s.outTaken + k }

/-- The host takes the oldest `k` words of the sample output stream. -/
def State.takeSamples (s : State) (k : Nat) : List Word × State :=
  (s.sampleOut.take k,
   { s with sampleOut := s.sampleOut.drop k, outTaken := s.outTaken - min k s.sampleOut.length })

/-- The host takes the oldest `k` words of the readback port. -/
def State.takeReadback (s : State) (k : Nat) : List Word × State :=
  (s.readback.take k, { s with readback := s.readback.drop k })

end Sys2Proof.Machine
end

