-- ==== Sys2Proof/Safety.lean ====
section
/-! DEFINITION. What holds of a core in every state that power-on and its commands reach, in the terms the statements
use: the lifecycle rules (10_state R20, R35, R37, R43), the configuration (00_scope R7) and the numeric ranges (10_state
R41). -/

namespace Sys2Proof

/-- The least F a draw gives: CENTRE_FREQUENCY - MAX_FREQUENCY_DEVIATION, rounded (10_state R30). -/
def Config.fMin (c : Config) : Word := F32.sub 0x7FC00000 c.centreFrequency c.maxFrequencyDeviation

/-- The greatest F a draw gives: CENTRE_FREQUENCY + MAX_FREQUENCY_DEVIATION, rounded (10_state R30). -/
def Config.fMax (c : Config) : Word := F32.add 0x7FC00000 c.centreFrequency c.maxFrequencyDeviation

/-- A finite frequency within the range of 10_state R30. -/
def Config.inSweep (c : Config) (f : Word) : Bool := F32.isFinite f && F32.le c.fMin f && F32.le f c.fMax

/-- A well-formed configuration whose greatest rate is finite, whose sample rate is at least 1 Hz, so that no phase
increment overflows, and whose INIT_FREQUENCY lies in the sweep. R41 and R87 need them (assumption log 17, 21). -/
def Config.ordinary (c : Config) : Bool :=
  c.wellFormed && F32.isFinite c.maxLfoRate && F32.ge c.sampleRate F32.one && c.inSweep c.initFrequency

end Sys2Proof

namespace Sys2Proof.Machine

/-- The lifecycle registers agree with each other: a cause is recorded exactly in HALTED (R37, 60_exceptions R122), a
PROCESS is under way, with frames left or output words the host does not take, only in READY (42_process R100), WRAP does not outlive its frame (R43), and no knob is written in
UNINIT (R35, R36). -/
def State.lifecycleOk (s : State) : Bool :=
  decide (s.faultCause = .none ↔ s.mode ≠ .halted)
    && (decide (s.framesLeft = 0) || decide (s.mode = .ready))
    && (s.outputTaken || decide (s.mode = .ready))
    && !s.wrap
    && (decide (s.mode ≠ .uninit) || (!s.tkw && !s.dkw))

/-- TKW and DKW say whether the knobs hold a value (R35, 44_system R118). -/
def State.knobsOk (s : State) : Bool := (s.tkw == s.timeKnob.isSome) && (s.dkw == s.depthKnob.isSome)

/-- The configuration and the table satisfy R7. -/
def State.configOk (s : State) : Bool := s.cfg.wellFormed && Memory.inRange s.table

/-- In READY, Q holds `Q_CONST` (R29). -/
def State.qOk (s : State) : Bool := decide (s.mode ≠ .ready) || decide (s.q = s.cfg.qConst)

/-- The invariant of every step, numbers apart. -/
def State.inv (s : State) : Bool := s.lifecycleOk && s.knobsOk && s.configOk && s.qOk

/-- +0.0 <= PHASE < 1.0 (R23): on words that are no negative zero, the bits are below those of 1.0. -/
def State.phaseOk (s : State) : Bool := decide (s.phase.toNat < 0x3F800000)

/-- 0 <= RATE <= MAX_LFO_RATE, finite (R24, R41). -/
def State.rateOk (s : State) : Bool :=
  F32.isFinite s.rate && F32.le F32.zero s.rate && F32.le s.rate s.cfg.maxLfoRate

/-- 0 <= EFFECT_DEPTH <= MAX_FREQUENCY_DEVIATION, finite (R35, R41). -/
def State.effectDepthOk (s : State) : Bool :=
  F32.isFinite s.effectDepth && F32.le F32.zero s.effectDepth && F32.le s.effectDepth s.cfg.maxFrequencyDeviation

/-- CENTRE - DEVIATION <= F <= CENTRE + DEVIATION, the ends rounded to binary32, finite (R30, R41). -/
def State.fOk (s : State) : Bool := s.cfg.inSweep s.f

/-- The ranges of R41, which hold in READY. -/
def State.numericOk (s : State) : Bool :=
  decide (s.mode ≠ .ready) || (s.phaseOk && s.rateOk && s.effectDepthOk && s.fOk)

/-! ## Terms of the statements -/

/-- The frame that starts in this state has a wrap event (40_oscillator R81). -/
def State.wraps (s : State) : Bool := F32.ge s.oscAdvance.phase F32.one

/-- The number of wrap events in the next `k` frames whose words are on the sample input stream (40_oscillator R88). -/
def wrapCount : Nat → State → Nat
  | 0, _ => 0
  | k + 1, s =>
    match s.sampleIn with
    | mL :: mR :: sL :: sR :: rest => (if s.wraps then 1 else 0) + wrapCount k (s.runFrame mL mR sL sR rest)
    | _ => 0

/-- `round24` of 43_parameters R108: rounded to 24 significant bits, ties to even. -/
def round24 (n : Nat) : Nat := F32.divNearestEven n (2 ^ (Nat.log2 n - 23)) * 2 ^ (Nat.log2 n - 23)

end Sys2Proof.Machine
end

