-- ==== Sys2Proof/Certificates/Slice0/Obligations.lean ====
section
/-! DEFINITION. The statements for the provers. Each says what the spec's rules say of a command, of a step or of the
whole core; the rule is named at each. Statements about a free NaN result (`State.nan`) hold for every value of it. -/

open Sys2Proof Sys2Proof.Machine

/-! ## Encoding -/

/-- R61 to R66, R70, R78: every well-formed command, with every operand, decodes to itself. -/
def Obligations.EncodedCommandDecodesToItself : Prop :=
  ∀ (i : Instr) (rest : List Word), i.wellFormed = true → decodeCommand (encode i ++ rest) = .command i rest

/-- R61 to R66, R70, R78: what decodes to a command is the encoding of that command, and the command is well formed. -/
def Obligations.DecodedCommandWasEncoded : Prop :=
  ∀ (ws : List Word) (i : Instr) (rest : List Word),
    decodeCommand ws = .command i rest → i.wellFormed = true ∧ ws = encode i ++ rest

/-- R70: the legal header words are exactly the rows of the table, by match and mask. -/
def Obligations.LegalHeadersAreTheTableRows : Prop :=
  ∀ h : Word,
    (decodeHeader h = .ok .init ↔ h = 0x00000000) ∧
    (decodeHeader h = .ok .setParamTime ↔ h = 0x10000000) ∧
    (decodeHeader h = .ok .setParamDepth ↔ h = 0x10000001) ∧
    (∀ p : BitVec 8, decodeHeader h = .ok (.setParamNone p) ↔
      h &&& 0xFFFFFF00 = 0x10000000 ∧ p = h.extractLsb' 0 8 ∧ 2 ≤ p.toNat) ∧
    (decodeHeader h = .ok .process ↔ h = 0x20000000) ∧
    (∀ r : Reg, decodeHeader h = .ok (.readReg r) ↔ h &&& 0xFFFFFFF0 = 0x30000000 ∧ r.number = h.extractLsb' 0 4)

/-- R71, R72, R73, R124: a header with a reserved opcode, a non-zero must-be-zero bit or a reserved register number is
taken alone and raises ILLEGAL_COMMAND, in UNINIT and in READY alike. -/
def Obligations.IllegalHeaderHaltsTheCore : Prop :=
  ∀ (s : State) (h : Word) (rest : List Word), s.mode ≠ .halted → s.framesLeft = 0 → s.outputTaken = true →
    s.cmdPort = h :: rest →
    (4 ≤ (h.extractLsb' 28 4).toNat ∨
     (h.extractLsb' 28 4 = 0 ∧ h.extractLsb' 0 28 ≠ 0) ∨
     (h.extractLsb' 28 4 = 1 ∧ h.extractLsb' 8 20 ≠ 0) ∨
     (h.extractLsb' 28 4 = 2 ∧ h.extractLsb' 0 28 ≠ 0) ∨
     (h.extractLsb' 28 4 = 3 ∧ h.extractLsb' 5 23 ≠ 0) ∨
     (h.extractLsb' 28 4 = 3 ∧ h.extractLsb' 4 1 = 1)) →
    step s = .next { s with cmdPort := rest, faultCause := .illegalCommand, mode := .halted }

/-- R79: the encoding examples, word by word. -/
def Obligations.ExampleWordsDecode : Prop :=
  decodeCommand [0x00000000, 0x00000000, 0x00000000] = .command (.init 0 0) [] ∧
  decodeCommand [0x10000000, 0x7FFFFFFF] = .command (.setParamTime 0x7FFFFFFF) [] ∧
  decodeCommand [0x10000001, 0x40000000] = .command (.setParamDepth 0x40000000) [] ∧
  decodeCommand [0x10000007, 0x00000000] = .command (.setParamNone 7 0) [] ∧
  decodeCommand [0x20000000, 0x00000004] = .command (.process 4) [] ∧
  decodeCommand [0x30000007] = .command (.readReg .f) [] ∧
  decodeCommand [0x30000000] = .command (.readReg .status) [] ∧
  decodeCommand [0x30000010] = .illegal .reservedRegister [] ∧
  decodeCommand [0x40000000] = .illegal .reservedOpcode []

/-! ## The step -/

/-- When no PROCESS is under way and the words on the command port begin with a command, a step takes its words and runs
it (R61, R127). -/
def Obligations.StepRunsTheDecodedCommand : Prop :=
  ∀ (s : State) (i : Instr) (rest : List Word), s.mode ≠ .halted → s.framesLeft = 0 → s.outputTaken = true →
    decodeCommand s.cmdPort = .command i rest → step s = exec i { s with cmdPort := rest }

/-- R128: in HALTED the core takes one word at a time; READ_REG 0x00 returns STATUS, every other word has no effect,
and only power-on reset leaves HALTED. -/
def Obligations.HaltedCoreTakesWordsOneByOne : Prop :=
  (∀ (s : State) (w : Word) (rest : List Word), s.mode = .halted → s.framesLeft = 0 → s.outputTaken = true →
    s.cmdPort = w :: rest → step s = .next (if w = 0x30000000
      then { s with cmdPort := rest, readback := s.readback ++ [s.status] } else { s with cmdPort := rest })) ∧
  (∀ s t : State, s.mode = .halted → step s = .next t → t.mode = .halted ∧ t.faultCause = s.faultCause) ∧
  (∀ s : State, s.mode = .halted →
    s.status.toNat = 2 + s.faultCause.code.toNat * 16 + s.tkw.toNat * 4 + s.dkw.toNat * 8) ∧
  (∀ s : State, s.mode = .halted → s.faultCause = .notInitialized → s.tkw = false → s.dkw = false →
    s.status = 0x00000012) ∧
  (∀ s : State, s.powerOnReset.mode = .uninit)

/-- The model's choice, assumption log 7, 8 and 9: a core with no whole command on its port, a PROCESS with no whole frame
on its input stream, or one with output words that the host does not take (R60, R135, 93 I17), stays as it is. -/
def Obligations.WaitingCoreStaysAsItIs : Prop :=
  (∀ s : State, s.mode ≠ .halted → s.framesLeft = 0 → decodeCommand s.cmdPort = .incomplete → step s = .next s) ∧
  (∀ s : State, s.framesLeft = 0 → s.outTaken < s.sampleOut.length → step s = .next s) ∧
  (∀ s : State, s.mode = .halted → s.framesLeft = 0 → s.cmdPort = [] → step s = .next s) ∧
  (∀ s : State, s.framesLeft ≠ 0 → s.sampleIn.length < 4 → step s = .next s)

/-- R55, R60, R107: while a PROCESS is under way, with frames left or with output words that the host does not take, the
core takes no command, and RATE, EFFECT_DEPTH and Q do not change. -/
def Obligations.RunningBlockTakesNoCommand : Prop :=
  ∀ s t : State, s.framesLeft ≠ 0 ∨ s.outTaken < s.sampleOut.length → step s = .next t →
    t.cmdPort = s.cmdPort ∧ t.readback = s.readback ∧ t.rate = s.rate ∧ t.effectDepth = s.effectDepth ∧ t.q = s.q ∧
    t.mode = s.mode ∧ t.faultCause = s.faultCause

/-- Every step ends in a next state. No numeric condition stops the core (R120, R129) and a fault is the state HALTED
(R122); that a core which waits or is stuck answers a next state too is the model's choice (assumption log 8 and 9). -/
def Obligations.EveryStepHasANextState : Prop := ∀ s : State, ∃ t, step s = .next t

/-! ## INIT -/

/-- R115: what INIT writes, whatever its operands are, and that nothing else changes; in HALTED it has no effect. -/
def Obligations.InitWritesItsRegisters : Prop :=
  ∀ (platformId apiVersion : Word) (s : State),
    (s.mode ≠ .halted → exec (.init platformId apiVersion) s = .next
      { s with
        phase := 0x00000000, tableIndex := 0, rate := s.cfg.initLfoRate, f := s.cfg.initFrequency,
        effectDepth := s.cfg.initDeviation, d1 := 0x00000000, d2 := 0x00000000, q := s.cfg.qConst,
        h := 0x00000000, b := 0x00000000, l := 0x00000000, n := 0x00000000, f1 := 0x00000000,
        timeKnob := none, depthKnob := none, tkw := false, dkw := false, mode := .ready }) ∧
    (s.mode = .halted → exec (.init platformId apiVersion) s = .next s)

/-- R119: INIT is idempotent, and the registers after it do not depend on those before it. -/
def Obligations.InitIsIdempotent : Prop :=
  (∀ (p a p' a' : Word) (s t : State), s.mode ≠ .halted → exec (.init p a) s = .next t →
    exec (.init p' a') t = .next t) ∧
  (∀ (p a p' a' : Word) (s s' t t' : State), s.mode ≠ .halted → s'.mode ≠ .halted → s.cfg = s'.cfg →
    s.faultCause = s'.faultCause → exec (.init p a) s = .next t → exec (.init p' a') s' = .next t' →
    t.mode = t'.mode ∧ t.tkw = t'.tkw ∧ t.dkw = t'.dkw ∧ ∀ r : Reg, t.readRegister r = t'.readRegister r)

/-! ## READ_REG and STATUS -/

/-- R117: READ_REG 0x00 returns STATUS in every mode; it is the only command accepted in HALTED; in UNINIT it returns 0. -/
def Obligations.StatusIsReadInEveryMode : Prop :=
  (∀ s : State, exec (.readReg .status) s = .next { s with readback := s.readback ++ [s.status] }) ∧
  (∀ (i : Instr) (s : State), s.mode = .halted → i ≠ .readReg .status → exec i s = .next s) ∧
  (∀ s : State, s.mode = .uninit → s.inv = true →
    exec (.readReg .status) s = .next { s with readback := s.readback ++ [0x00000000] })

/-- R36: the fields of STATUS, with the cause codes of 60_exceptions R121 in bits 7:4, its value in UNINIT and after INIT
with no fault. -/
def Obligations.StatusFieldsReportTheLifecycle : Prop :=
  (∀ s : State,
    s.status.getLsbD 0 = decide (s.mode = .ready) ∧
    s.status.getLsbD 1 = decide (s.mode = .halted) ∧
    s.status.getLsbD 2 = s.tkw ∧
    s.status.getLsbD 3 = s.dkw ∧
    s.status.extractLsb' 4 4 = s.faultCause.code ∧
    s.status.extractLsb' 8 24 = 0) ∧
  (∀ s : State,
    (s.faultCause = .none → s.status.extractLsb' 4 4 = 0) ∧
    (s.faultCause = .notInitialized → s.status.extractLsb' 4 4 = 1) ∧
    (s.faultCause = .illegalCommand → s.status.extractLsb' 4 4 = 2) ∧
    (s.faultCause = .rawOutOfRange → s.status.extractLsb' 4 4 = 3) ∧
    (s.faultCause = .unwrittenRead → s.status.extractLsb' 4 4 = 4) ∧
    (s.status.extractLsb' 4 4).toNat ≤ 4) ∧
  (∀ s : State, s.mode = .uninit → s.inv = true → s.status = 0x00000000) ∧
  (∀ (p a : Word) (s t : State), s.mode ≠ .halted → s.faultCause = .none → exec (.init p a) s = .next t →
    t.status = 0x00000001)

/-- R116: READ_REG puts the named register on the readback port and changes no register: STATUS in every mode, the
others in READY; a knob whose flag is clear, and UNINIT, raise their faults. -/
def Obligations.ReadRegReturnsTheRegister : Prop :=
  (∀ s : State, exec (.readReg .status) s = .next { s with readback := s.readback ++ [s.status] }) ∧
  (∀ s : State, s.mode = .ready →
    exec (.readReg .phase) s = .next { s with readback := s.readback ++ [s.phase] } ∧
    exec (.readReg .rate) s = .next { s with readback := s.readback ++ [s.rate] } ∧
    exec (.readReg .tableIndex) s = .next { s with readback := s.readback ++ [BitVec.ofNat 32 s.tableIndex.toNat] } ∧
    exec (.readReg .d1) s = .next { s with readback := s.readback ++ [s.d1] } ∧
    exec (.readReg .d2) s = .next { s with readback := s.readback ++ [s.d2] } ∧
    exec (.readReg .q) s = .next { s with readback := s.readback ++ [s.q] } ∧
    exec (.readReg .f) s = .next { s with readback := s.readback ++ [s.f] } ∧
    exec (.readReg .h) s = .next { s with readback := s.readback ++ [s.h] } ∧
    exec (.readReg .b) s = .next { s with readback := s.readback ++ [s.b] } ∧
    exec (.readReg .l) s = .next { s with readback := s.readback ++ [s.l] } ∧
    exec (.readReg .n) s = .next { s with readback := s.readback ++ [s.n] } ∧
    exec (.readReg .effectDepth) s = .next { s with readback := s.readback ++ [s.effectDepth] } ∧
    exec (.readReg .f1) s = .next { s with readback := s.readback ++ [s.f1] }) ∧
  (∀ (s : State) (v : Word), s.mode = .ready → s.dkw = true → s.depthKnob = some v →
    exec (.readReg .depthKnob) s = .next { s with readback := s.readback ++ [v] }) ∧
  (∀ (s : State) (v : Word), s.mode = .ready → s.tkw = true → s.timeKnob = some v →
    exec (.readReg .timeKnob) s = .next { s with readback := s.readback ++ [v] }) ∧
  (∀ s : State, s.mode = .ready → s.dkw = false →
    exec (.readReg .depthKnob) s = .next { s with faultCause := .unwrittenRead, mode := .halted }) ∧
  (∀ s : State, s.mode = .ready → s.tkw = false →
    exec (.readReg .timeKnob) s = .next { s with faultCause := .unwrittenRead, mode := .halted }) ∧
  (∀ (r : Reg) (s : State), s.mode = .uninit → r ≠ .status →
    exec (.readReg r) s = .next { s with faultCause := .notInitialized, mode := .halted }) ∧
  (∀ s t u : State, s.mode ≠ .halted → s.cfg.maxLfoRate = 0x41A00000 → exec (.init 0 0) s = .next t →
    exec (.setParamTime 0x40000000) t = .next u →
    exec (.readReg .rate) u = .next { u with readback := u.readback ++ [0x41200000] })

/-- R126, R118: reading a knob not written since INIT halts the core with UNWRITTEN_READ. -/
def Obligations.UnwrittenKnobReadHalts : Prop :=
  (∀ s : State, s.mode = .ready → s.dkw = false →
    exec (.readReg .depthKnob) s = .next { s with faultCause := .unwrittenRead, mode := .halted }) ∧
  (∀ s : State, s.mode = .ready → s.tkw = false →
    exec (.readReg .timeKnob) s = .next { s with faultCause := .unwrittenRead, mode := .halted })

/-! ## SET_PARAM -/

/-- R109: in READY, a raw value with bit 31 clear sets TIME_KNOB, TKW and RATE and nothing else; the two faults; the
corner cases and the examples with MAX_LFO_RATE = 20. -/
def Obligations.SetTimeWritesTheRate : Prop :=
  (∀ (raw : Word) (s : State), s.mode = .ready → raw.toNat < 2 ^ 31 →
    exec (.setParamTime raw) s = .next
      { s with
        timeKnob := some (F32.mul (s.nan 0) (F32.ofI32 raw) 0x30000000), tkw := true,
        rate := F32.mul (s.nan 1) s.cfg.maxLfoRate (F32.mul (s.nan 0) (F32.ofI32 raw) 0x30000000),
        nanDraws := s.nanDraws + 2 }) ∧
  (∀ (raw : Word) (s : State), s.mode = .uninit →
    exec (.setParamTime raw) s = .next { s with faultCause := .notInitialized, mode := .halted }) ∧
  (∀ (raw : Word) (s : State), s.mode = .ready → 2 ^ 31 ≤ raw.toNat →
    exec (.setParamTime raw) s = .next { s with faultCause := .rawOutOfRange, mode := .halted }) ∧
  (∀ s t : State, s.mode = .ready →
    (F32.isFinite s.cfg.maxLfoRate = true → F32.sign s.cfg.maxLfoRate = false →
      exec (.setParamTime 0x00000000) s = .next t → t.rate = 0x00000000) ∧
    (F32.isNaN s.cfg.maxLfoRate = false → exec (.setParamTime 0x7FFFFFFF) s = .next t → t.rate = s.cfg.maxLfoRate)) ∧
  (∀ s t : State, s.mode = .ready → s.cfg.maxLfoRate = 0x41A00000 →
    (exec (.setParamTime 0x40000000) s = .next t → t.rate = 0x41200000) ∧
    (exec (.setParamTime 0x26666666) s = .next t → t.rate = 0x40C00000) ∧
    (exec (.setParamTime 0x0CCCCCCD) s = .next t → t.rate = 0x40000000))

/-- R110: in READY, a raw value with bit 31 clear sets DEPTH_KNOB, DKW and EFFECT_DEPTH and nothing else; the two faults;
the corner case (with what a later draw then gives) and the examples with MAX_FREQUENCY_DEVIATION = 1100. -/
def Obligations.SetDepthWritesTheEffectDepth : Prop :=
  (∀ (raw : Word) (s : State), s.mode = .ready → raw.toNat < 2 ^ 31 →
    exec (.setParamDepth raw) s = .next
      { s with
        depthKnob := some (F32.mul (s.nan 0) (F32.ofI32 raw) 0x30000000), dkw := true,
        effectDepth := F32.mul (s.nan 1) (F32.mul (s.nan 0) (F32.ofI32 raw) 0x30000000) s.cfg.maxFrequencyDeviation,
        nanDraws := s.nanDraws + 2 }) ∧
  (∀ (raw : Word) (s : State), s.mode = .uninit →
    exec (.setParamDepth raw) s = .next { s with faultCause := .notInitialized, mode := .halted }) ∧
  (∀ (raw : Word) (s : State), s.mode = .ready → 2 ^ 31 ≤ raw.toNat →
    exec (.setParamDepth raw) s = .next { s with faultCause := .rawOutOfRange, mode := .halted }) ∧
  (∀ s t : State, s.mode = .ready → F32.isFinite s.cfg.maxFrequencyDeviation = true →
    F32.sign s.cfg.maxFrequencyDeviation = false → exec (.setParamDepth 0x00000000) s = .next t →
    t.effectDepth = 0x00000000 ∧
    ∀ u : State, u.cfg = s.cfg → u.effectDepth = t.effectDepth → u.wrap = true → u.configOk = true →
      F32.val u.wrapDraw.f = F32.val u.cfg.centreFrequency) ∧
  (∀ s t : State, s.mode = .ready → s.cfg.maxFrequencyDeviation = 0x44898000 →
    (exec (.setParamDepth 0x40000000) s = .next t → t.effectDepth = 0x44098000) ∧
    (exec (.setParamDepth 0x7FFFFFFF) s = .next t → t.effectDepth = 0x44898000) ∧
    (exec (.setParamDepth 0x26666666) s = .next t → t.effectDepth = 0x43A50000) ∧
    (exec (.setParamDepth 0x0CCCCCCD) s = .next t → t.effectDepth = 0x42DC0000) ∧
    (exec (.setParamDepth 0x7FFFFFBF) s = .next t → t.effectDepth = 0x44897FFF))

/-- R111: SET_PARAM with no parameter has no effect in READY, whatever its operands are, and needs READY. -/
def Obligations.SetNoneHasNoEffect : Prop :=
  (∀ (pidx : BitVec 8) (raw : Word) (s : State), s.mode = .ready → exec (.setParamNone pidx raw) s = .next s) ∧
  (∀ (pidx : BitVec 8) (raw : Word) (s : State), s.mode = .uninit →
    exec (.setParamNone pidx raw) s = .next { s with faultCause := .notInitialized, mode := .halted })

/-- R112, R125: in READY, a raw value with bit 31 set halts SET_PARAM TIME and DEPTH with RAW_OUT_OF_RANGE and writes no
knob, RATE or EFFECT_DEPTH; SET_PARAM with no parameter never raises it. -/
def Obligations.NegativeRawHalts : Prop :=
  (∀ (raw : Word) (s : State), s.mode = .ready → 2 ^ 31 ≤ raw.toNat →
    exec (.setParamTime raw) s = .next { s with faultCause := .rawOutOfRange, mode := .halted } ∧
    exec (.setParamDepth raw) s = .next { s with faultCause := .rawOutOfRange, mode := .halted }) ∧
  (∀ (pidx : BitVec 8) (raw : Word) (s t : State), exec (.setParamNone pidx raw) s = .next t →
    t.faultCause = .rawOutOfRange → s.faultCause = .rawOutOfRange)

/-- R108: the conversion of a raw value is `round24(RAW) / 2^31`, for a non-negative one in [0.0, 1.0]; the corner cases
and the examples, whatever a NaN would be. -/
def Obligations.RawConversionIsExact : Prop :=
  (∀ raw nan : Word, rawToUnit nan raw = F32.mul nan (F32.ofI32 raw) 0x30000000) ∧
  (∀ raw nan : Word, 2 ^ 31 ≤ raw.toNat →
    F32.isNaN (rawToUnit nan raw) = false ∧
    F32.val (rawToUnit nan raw) * 2 ^ 31 = -((round24 (2 ^ 32 - raw.toNat) * 2 ^ 149 : Nat) : Int)) ∧
  (∀ raw nan : Word, raw.toNat < 2 ^ 31 →
    F32.isNaN (rawToUnit nan raw) = false ∧
    (rawToUnit nan raw).toNat ≤ 0x3F800000 ∧
    F32.mag (rawToUnit nan raw) * 2 ^ 31 = round24 raw.toNat * 2 ^ 149 ∧
    (0x7FFFFFC0 ≤ raw.toNat → rawToUnit nan raw = 0x3F800000)) ∧
  (∀ nan : Word,
    rawToUnit nan 0x7FFFFFBF = 0x3F7FFFFF ∧ rawToUnit nan 0x00000001 = 0x30000000 ∧
    rawToUnit nan 0x00000000 = 0x00000000 ∧ rawToUnit nan 0x40000000 = 0x3F000000 ∧
    rawToUnit nan 0x26666666 = 0x3E99999A ∧ rawToUnit nan 0x0CCCCCCD = 0x3DCCCCCD)

/-- R113: RATE and EFFECT_DEPTH stay in their ranges after SET_PARAM, and a knob at 1.0 gives the maximum exactly. The
premise `ordinary` (a finite MAX_LFO_RATE) is the model's, assumption log 17. -/
def Obligations.ParametersStayInRange : Prop :=
  ∀ (raw : Word) (s t : State), s.cfg.ordinary = true → s.mode = .ready → raw.toNat < 2 ^ 31 →
    (exec (.setParamTime raw) s = .next t → t.rateOk = true ∧ (0x7FFFFFC0 ≤ raw.toNat →
      F32.val t.rate = F32.val s.cfg.maxLfoRate)) ∧
    (exec (.setParamDepth raw) s = .next t → t.effectDepthOk = true ∧ (0x7FFFFFC0 ≤ raw.toNat →
      F32.val t.effectDepth = F32.val s.cfg.maxFrequencyDeviation))

/-- The frame of SET_PARAM, in every mode and for every form (R109 to R112, R114): the oscillator's phase, index and F,
the filter, the constants, the streams, the ports and the table stay as they are. -/
def Obligations.SetParamLeavesTheRest : Prop :=
  ∀ (i : Instr) (s t : State),
    (∃ raw, i = .setParamTime raw) ∨ (∃ raw, i = .setParamDepth raw) ∨ (∃ pidx raw, i = .setParamNone pidx raw) →
    exec i s = .next t →
    t.phase = s.phase ∧ t.tableIndex = s.tableIndex ∧ t.f = s.f ∧ t.f1 = s.f1 ∧ t.d1 = s.d1 ∧ t.d2 = s.d2 ∧
    t.h = s.h ∧ t.b = s.b ∧ t.l = s.l ∧ t.n = s.n ∧ t.q = s.q ∧ t.framesLeft = s.framesLeft ∧ t.wrap = s.wrap ∧
    t.cfg = s.cfg ∧ t.cmdPort = s.cmdPort ∧ t.sampleIn = s.sampleIn ∧ t.sampleOut = s.sampleOut ∧
    t.readback = s.readback ∧ (∀ k, t.memRead k = s.memRead k) ∧
    ((¬∃ raw, i = .setParamTime raw) → t.rate = s.rate ∧ t.timeKnob = s.timeKnob ∧ t.tkw = s.tkw) ∧
    ((¬∃ raw, i = .setParamDepth raw) → t.effectDepth = s.effectDepth ∧ t.depthKnob = s.depthKnob ∧ t.dkw = s.dkw)

/-! ## Lifecycle and faults -/

/-- R123: before INIT every command but INIT and READ_REG 0x00 halts the core with NOT_INITIALIZED. -/
def Obligations.CommandBeforeInitHalts : Prop :=
  (∀ (i : Instr) (s : State), s.mode = .uninit → (∀ p a, i ≠ .init p a) → i ≠ .readReg .status →
    exec i s = .next { s with faultCause := .notInitialized, mode := .halted }) ∧
  (∀ (p a : Word) (s t : State), exec (.init p a) s = .next t → t.faultCause = s.faultCause) ∧
  (∀ s t : State, exec (.readReg .status) s = .next t → t.faultCause = s.faultCause)

/-- R20: only INIT writes READY, only a fault writes HALTED, only power-on reset writes UNINIT; STATUS
reports MODE. -/
def Obligations.ModeChangesOnlyAsTheLifecycleSays : Prop :=
  (∀ s t : State, step s = .next t →
    (t.mode = .ready → s.mode = .ready ∨ ∃ p a rest, s.activity = .take (.init p a) rest) ∧
    (t.mode = .halted → s.mode = .halted ∨ t.faultCause ≠ .none) ∧
    (t.mode = .uninit → s.mode = .uninit)) ∧
  (∀ s : State, s.powerOnReset.mode = .uninit) ∧
  (∀ s : State, s.status.getLsbD 0 = decide (s.mode = .ready) ∧ s.status.getLsbD 1 = decide (s.mode = .halted))

/-- R122: a step that raises a fault takes the words of the command or the illegal header and no others (R127), writes
FAULT_CAUSE and MODE, and has no other effect; no fault arises in a PROCESS under way. -/
def Obligations.FaultEntryWritesTwoRegisters : Prop :=
  ∀ s t : State, step s = .next t →
    (s.mode ≠ .halted → t.mode = .halted →
      t.faultCause ≠ .none ∧
      ∃ rest, ((∃ i, decodeCommand s.cmdPort = .command i rest) ∨ ∃ why, decodeCommand s.cmdPort = .illegal why rest) ∧
        t = { s with cmdPort := rest, faultCause := t.faultCause, mode := .halted }) ∧
    (t.faultCause ≠ s.faultCause →
      s.mode ≠ .halted ∧ t.mode = .halted ∧ s.framesLeft = 0 ∧ s.sampleOut.length ≤ s.outTaken)

/-- R47: no rule writes the table; its entries read the same for the life of the core. The configuration is as
constant (R40). -/
def Obligations.TableAndConstantsNeverChange : Prop :=
  ∀ s t : State, step s = .next t → t.table = s.table ∧ (∀ k, t.memRead k = s.memRead k) ∧ t.cfg = s.cfg

/-- R97: Q is read by the filter step and written only by INIT. -/
def Obligations.QIsWrittenOnlyByInit : Prop :=
  (∀ s t : State, step s = .next t →
    t.q = s.q ∨ ((∃ p a rest, s.activity = .take (.init p a) rest) ∧ t.q = s.cfg.qConst)) ∧
  (∀ (s : State) (x : Word),
    (s.svfStep x).h = F32.sub (s.nan 4) (F32.sub (s.nan 2) x (s.svfStep x).l) (F32.mul (s.nan 3) s.q s.d1) ∧
    (s.svfStep x).q = s.q)

/-- R89, R84: besides INIT only a wrap event writes F: a PROCESS whose frames have no wrap, be it run at once or resumed,
and every other command leave F and TABLE_INDEX as they are. -/
def Obligations.TargetFrequencyChangesOnlyAtAWrap : Prop :=
  (∀ (frames : Word) (s t : State), s.mode = .ready → exec (.process frames) s = .next t →
    wrapCount frames.toNat s = 0 → t.f = s.f ∧ t.tableIndex = s.tableIndex) ∧
  (∀ (i : Instr) (s t : State), (∀ p a, i ≠ .init p a) → (∀ frames, i ≠ .process frames) → exec i s = .next t →
    t.f = s.f ∧ t.tableIndex = s.tableIndex) ∧
  (∀ s t : State, s.framesLeft ≠ 0 → step s = .next t → wrapCount s.framesLeft.toNat s = 0 →
    t.f = s.f ∧ t.tableIndex = s.tableIndex)

/-! ## The oscillator -/

/-- R80: the phase increment, computed every frame; at most 0x39DA740E with the default sample rate and a rate of at most
20 Hz, so that the phase stays below 2.0; a zero rate leaves the phase. -/
def Obligations.PhaseAdvancesByRateOverSampleRate : Prop :=
  (∀ s : State, s.oscAdvance =
    { s with phase := F32.add (s.nan 1) s.phase (F32.div (s.nan 0) s.rate s.cfg.sampleRate),
             nanDraws := s.nanDraws + 2 }) ∧
  (∀ s : State, s.cfg.sampleRate = 0x473B8000 → s.rate.toNat ≤ 0x41A00000 →
    (F32.div (s.nan 0) s.rate s.cfg.sampleRate).toNat ≤ 0x39DA740E ∧
    (s.phaseOk = true → s.oscAdvance.phase.toNat < 0x40000000)) ∧
  (∀ s : State, s.cfg.sampleRateOk = true → s.rate = 0x00000000 → s.phaseOk = true → s.oscAdvance.phase = s.phase)

/-- R81: the wrap test is `PHASE >= 1.0`; a wrap folds the phase exactly to its fraction. -/
def Obligations.WrapFoldsThePhaseExactly : Prop :=
  (∀ s : State, s.wrapTest =
    { s with
      wrap := F32.ge s.phase 0x3F800000,
      phase := if F32.ge s.phase 0x3F800000 then F32.sub (s.nan 0) s.phase (F32.floor s.phase) else s.phase,
      nanDraws := s.nanDraws + 1 }) ∧
  (∀ s : State, 0x3F800000 ≤ s.phase.toNat → s.phase.toNat < 0x7F800000 →
    s.wrapTest.wrap = true ∧ s.wrapTest.phase.toNat < 0x3F800000 ∧
    F32.mag s.wrapTest.phase = F32.mag s.phase % 2 ^ 149) ∧
  (∀ s : State, s.phase.toNat < 0x3F800000 ∨ F32.isNaN s.phase = true →
    s.wrapTest.wrap = false ∧ s.wrapTest.phase = s.phase) ∧
  (∀ s : State, s.phase = 0x3F800000 → s.wrapTest.wrap = true ∧ s.wrapTest.phase = 0x00000000) ∧
  (∀ s : State, 0x3F800000 ≤ s.phase.toNat → s.phase.toNat < 0x40000000 →
    s.wrapTest.phase = F32.sub (s.nan 0) s.phase 0x3F800000) ∧
  (∀ s : State, s.cfg.sampleRate = 0x473B8000 → s.rate = 0x41A00000 → s.phase = 0x3F7FE6F9 →
    s.oscAdvance.wrapTest.wrap = true ∧ s.oscAdvance.wrapTest.phase = 0x38120000)

/-- R82, R83, R84: a wrap draws the entry at the index before the step and sets F, then steps the index modulo 1024;
without a wrap neither changes. -/
def Obligations.WrapDrawsTheNextEntry : Prop :=
  (∀ s : State, s.wrap = true → s.cfg.tableMask = 0x3FF →
    s.wrapDraw.indexStep.f =
      F32.add (s.nan 1) s.cfg.centreFrequency (F32.mul (s.nan 0) (s.memRead s.tableIndex) s.effectDepth) ∧
    s.wrapDraw.indexStep.tableIndex.toNat = (s.tableIndex.toNat + 1) % 1024) ∧
  (∀ s : State, s.wrap = false → s.wrapDraw.indexStep = s) ∧
  (∀ s : State, s.wrap = true → s.effectDepth = 0x00000000 → s.configOk = true →
    F32.val s.wrapDraw.f = F32.val s.cfg.centreFrequency ∧
    (F32.sign s.cfg.centreFrequency = false → s.wrapDraw.f = s.cfg.centreFrequency)) ∧
  (∀ s : State, s.wrap = true → s.cfg.centreFrequency = 0x44960000 →
    (s.memRead s.tableIndex = 0xBF800000 → s.effectDepth = 0x44898000 → s.wrapDraw.f = 0x42C80000) ∧
    (s.memRead s.tableIndex = 0x3F800000 → s.effectDepth = 0x44098000 → s.wrapDraw.f = 0x44DAC000))

/-- R88: TABLE_INDEX advances by one, modulo 1024, at each wrap event of a block, run at once or resumed, and at
nothing else of it. -/
def Obligations.TableIndexCountsTheWraps : Prop :=
  (∀ (frames : Word) (s t : State), s.mode = .ready → s.cfg.tableMask = 0x3FF → exec (.process frames) s = .next t →
    t.tableIndex.toNat = (s.tableIndex.toNat + wrapCount frames.toNat s) % 1024) ∧
  (∀ s t : State, s.framesLeft ≠ 0 → s.cfg.tableMask = 0x3FF → step s = .next t →
    t.tableIndex.toNat = (s.tableIndex.toNat + wrapCount s.framesLeft.toNat s) % 1024)

/-- R86: a frame reads at most one table entry, the one at TABLE_INDEX: two cores whose tables agree there end the frame
alike. That they do so down to the pattern of a NaN is the model's choice: a free value for each operation, numbered by a
counter (assumption log 3). -/
def Obligations.FrameReadsAtMostOneEntry : Prop :=
  ∀ (s : State) (table : Memory) (mL mR sL sR : Word) (rest : List Word),
    Memory.read table s.tableIndex.toNat = Memory.read s.table s.tableIndex.toNat →
    (({ s with table := table } : State).runFrame mL mR sL sR rest) =
      { s.runFrame mL mR sL sR rest with table := table }

/-- R87, on one frame: a phase in [0, 1) stays there. The premises on the rate and the sample rate are the model's,
assumption log 17. -/
def Obligations.PhaseStaysBelowOne : Prop :=
  ∀ (s : State) (mL mR sL sR : Word) (rest : List Word), s.phaseOk = true → F32.isFinite s.rate = true →
    F32.le 0x00000000 s.rate = true → s.cfg.sampleRateOk = true → F32.ge s.cfg.sampleRate 0x3F800000 = true →
    (s.runFrame mL mR sL sR rest).phaseOk = true

/-- R85: with RATE +0.0 a block of any length, run at once or resumed, leaves PHASE, F and TABLE_INDEX as they are. -/
def Obligations.RateZeroFreezesTheOscillator : Prop :=
  ∀ s t : State, s.rate = 0x00000000 → s.phaseOk = true → s.cfg.sampleRateOk = true →
    ((∃ frames, s.mode = .ready ∧ exec (.process frames) s = .next t) ∨ (s.framesLeft ≠ 0 ∧ step s = .next t)) →
    t.phase = s.phase ∧ t.f = s.f ∧ t.tableIndex = s.tableIndex

/-- R85: with an increment below 2^-25 no block, run at once or resumed, wraps, so F and TABLE_INDEX stay. (At 2^-25 itself R85's claim is not
true of every phase: assumption log 17.) -/
def Obligations.SmallIncrementNeverWraps : Prop :=
  ∀ s t : State, s.phaseOk = true → (∀ nan, (F32.div nan s.rate s.cfg.sampleRate).toNat < 0x33000000) →
    ((∃ frames, s.mode = .ready ∧ exec (.process frames) s = .next t) ∨ (s.framesLeft ≠ 0 ∧ step s = .next t)) →
    t.phaseOk = true ∧ t.f = s.f ∧ t.tableIndex = s.tableIndex

/-! ## The filter -/

/-- R90: the coefficient and its order of evaluation; F = +0.0 gives +0.0; the examples at the default sample rate. -/
def Obligations.CoefficientFollowsTheTargetFrequency : Prop :=
  (∀ s : State, s.coefDerive =
    { s with f1 := F32.div (s.nan 1) (F32.mul (s.nan 0) 0x40C90FDB s.f) s.cfg.sampleRate,
             nanDraws := s.nanDraws + 2 }) ∧
  (∀ s : State, s.cfg.sampleRateOk = true → s.f = 0x00000000 → s.coefDerive.f1 = 0x00000000) ∧
  (∀ s : State, s.cfg.sampleRateOk = true → F32.isNaN s.f = false → F32.sign s.coefDerive.f1 = F32.sign s.f) ∧
  (∀ nan : Word, F32.mul nan 0x40C90FDB 0x44960000 = 0x45EB9E95 ∧ F32.mul nan 0x40C90FDB 0x42C80000 = 0x441D1463 ∧
    F32.mul nan 0x40C90FDB 0x450FC000 = 0x4661CD4E ∧ F32.mul nan 0x40C90FDB 0x44DAC000 = 0x462BCE4C) ∧
  (∀ s : State, s.cfg.sampleRate = 0x473B8000 →
    (s.f = 0x44960000 → s.coefDerive.f1 = 0x3E20D97C) ∧ (s.f = 0x42C80000 → s.coefDerive.f1 = 0x3C567750) ∧
    (s.f = 0x450FC000 → s.coefDerive.f1 = 0x3E9A25C1) ∧ (s.f = 0x44DAC000 → s.coefDerive.f1 = 0x3E6A927F) ∧
    (s.f = 0x46BB8000 → s.coefDerive.f1 = 0x40490FDB)) ∧
  (∀ (s : State) (mL : Word),
    (s.frameRegisters mL).f1 = s.oscillate.coefDerive.f1 ∧ (s.frameRegisters mL).f = s.oscillate.f)

/-- R98: F1 grows with F, and lies between 0x3C567750 and 0x3E9A25C1 for F in [100, 2300] at the default sample rate. -/
def Obligations.CoefficientStaysInRange : Prop :=
  (∀ s t : State, s.cfg.sampleRateOk = true → t.cfg.sampleRate = s.cfg.sampleRate → F32.le 0x00000000 s.f = true →
    F32.le s.f t.f = true → F32.le s.coefDerive.f1 t.coefDerive.f1 = true) ∧
  (∀ s : State, s.cfg.sampleRate = 0x473B8000 → F32.le 0x42C80000 s.f = true → F32.le s.f 0x450FC000 = true →
    F32.le 0x3C567750 s.coefDerive.f1 = true ∧ F32.le s.coefDerive.f1 0x3E9A25C1 = true)

/-- R91: the filter step: every tap from the D1 and D2 of before the step, then D1 <- B and D2 <- L. -/
def Obligations.FilterStepIsTheChamberlinStep : Prop :=
  (∀ (s : State) (x : Word), ∃ l h b n : Word,
    l = F32.add (s.nan 1) s.d2 (F32.mul (s.nan 0) s.f1 s.d1) ∧
    h = F32.sub (s.nan 4) (F32.sub (s.nan 2) x l) (F32.mul (s.nan 3) s.q s.d1) ∧
    b = F32.add (s.nan 6) (F32.mul (s.nan 5) s.f1 h) s.d1 ∧
    n = F32.add (s.nan 7) h l ∧
    s.svfStep x = { s with l := l, h := h, b := b, n := n, d1 := b, d2 := l, nanDraws := s.nanDraws + 8 }) ∧
  (∀ s : State, s.d1 = 0x00000000 → s.d2 = 0x00000000 → s.f1 = 0x3E20D97C → s.q = 0x3E2E147B →
    s.svfStep 0x3F800000 = { s with
      l := 0x00000000, h := 0x3F800000, b := 0x3E20D97C, n := 0x3F800000, d1 := 0x3E20D97C, d2 := 0x00000000,
      nanDraws := s.nanDraws + 8 } ∧
    s.svfStep 0x80000000 = { s with
      l := 0x00000000, h := 0x80000000, b := 0x00000000, n := 0x00000000, d1 := 0x00000000, d2 := 0x00000000,
      nanDraws := s.nanDraws + 8 })

/-- R96: the output of a frame does not depend on its input sample, and the first output after INIT is +0.0. That two
frames with different inputs put the same pattern where L is a NaN is the model's choice (assumption log 3). -/
def Obligations.OutputLagsTheInputByOneFrame : Prop :=
  (∀ (s : State) (x y mR sL sR : Word) (rest : List Word),
    (s.runFrame x mR sL sR rest).sampleOut = (s.runFrame y mR sL sR rest).sampleOut) ∧
  (∀ (s : State) (x mR sL sR : Word) (rest : List Word),
    (s.runFrame x mR sL sR rest).l = F32.add (s.oscillate.coefDerive.nan 1) s.d2
      (F32.mul (s.oscillate.coefDerive.nan 0) (s.runFrame x mR sL sR rest).f1 s.d1)) ∧
  (∀ (s : State) (x mR sL sR : Word) (rest : List Word), s.d1 = 0x00000000 → s.d2 = 0x00000000 →
    F32.isFinite (s.runFrame x mR sL sR rest).f1 = true →
    (s.runFrame x mR sL sR rest).sampleOut = s.sampleOut ++ [0x00000000, 0x00000000, sL, sR])

/-- R93: only D1 and D2 carry filter state on: the held taps and F1 change nothing once a frame has run.
That the two runs agree down to the pattern of a NaN is the model's choice (assumption log 3). -/
def Obligations.HeldTapsChangeNothingLater : Prop :=
  ∀ (frames h b l n f1 : Word) (s : State), s.mode = .ready → frames ≠ 0 → 4 ≤ s.sampleIn.length →
    exec (.process frames) { s with h := h, b := b, l := l, n := n, f1 := f1 } = exec (.process frames) s

/-! ## PROCESS -/

/-- R101 (with R80 to R84, R90, R91, R102 to R104): a PROCESS of one frame (of more: `ProcessRunsExactlyItsFrames`), every
register it writes, and that it writes no other. The model's choices in it: FRAMES_LEFT 0 and WRAP false after the frame
(assumption log 12), the NaN draws (log 3), and that the frame's words are put whether or not the host takes them yet; the
core then waits in the command until it does (log 9). -/
def Obligations.OneFrameBlockComputesTheFrameStep : Prop :=
  ∀ (s : State) (mL mR sL sR : Word) (rest : List Word), s.mode = .ready →
    s.sampleIn = mL :: mR :: sL :: sR :: rest →
    ∃ (sum phase f f1 l h b n : Word) (k : Nat),
      sum = F32.add (s.nan 1) s.phase (F32.div (s.nan 0) s.rate s.cfg.sampleRate) ∧
      phase = (if F32.ge sum 0x3F800000 then F32.sub (s.nan 2) sum (F32.floor sum) else sum) ∧
      f = (if F32.ge sum 0x3F800000
        then F32.add (s.nan 4) s.cfg.centreFrequency (F32.mul (s.nan 3) (s.memRead s.tableIndex) s.effectDepth)
        else s.f) ∧
      k = (if F32.ge sum 0x3F800000 then 5 else 3) ∧
      f1 = F32.div (s.nan (k + 1)) (F32.mul (s.nan k) 0x40C90FDB f) s.cfg.sampleRate ∧
      l = F32.add (s.nan (k + 3)) s.d2 (F32.mul (s.nan (k + 2)) f1 s.d1) ∧
      h = F32.sub (s.nan (k + 6)) (F32.sub (s.nan (k + 4)) mL l) (F32.mul (s.nan (k + 5)) s.q s.d1) ∧
      b = F32.add (s.nan (k + 8)) (F32.mul (s.nan (k + 7)) f1 h) s.d1 ∧
      n = F32.add (s.nan (k + 9)) h l ∧
      exec (.process 1) s = .next
        { s with
          phase := phase, f := f, f1 := f1, l := l, h := h, b := b, n := n, d1 := b, d2 := l,
          tableIndex := if F32.ge sum 0x3F800000 then (s.tableIndex + 1) &&& s.cfg.tableMask else s.tableIndex,
          framesLeft := 0, wrap := false, sampleIn := rest, sampleOut := s.sampleOut ++ [l, l, sL, sR],
          nanDraws := s.nanDraws + k + 10 }

/-- R100, R52, R102, R104, R106: with its input words there, PROCESS of n frames runs them all: it takes 4n words and puts
4n words, the same low-pass word in both main slots and the sub words unchanged, and it changes no other state. The model's
choices in it: FRAMES_LEFT 0 after the last frame (assumption log 12), and that the words are put whether or not the host
takes them yet; the core then waits in the command until it does (log 9, `ProcessEndsWhenItsOutputIsTaken`). -/
def Obligations.ProcessRunsExactlyItsFrames : Prop :=
  ∀ (frames : Word) (s : State), s.mode = .ready → 4 * frames.toNat ≤ s.sampleIn.length →
    ∃ t out, exec (.process frames) s = .next t ∧ t.framesLeft = 0 ∧
      t.sampleIn = s.sampleIn.drop (4 * frames.toNat) ∧
      t.sampleOut = s.sampleOut ++ out ∧ out.length = 4 * frames.toNat ∧
      (∀ k, k < frames.toNat →
        out[4 * k]? = out[4 * k + 1]? ∧ out[4 * k + 2]? = s.sampleIn[4 * k + 2]? ∧
        out[4 * k + 3]? = s.sampleIn[4 * k + 3]?) ∧
      t.mode = s.mode ∧ t.faultCause = s.faultCause ∧ t.rate = s.rate ∧ t.effectDepth = s.effectDepth ∧ t.q = s.q ∧
      t.timeKnob = s.timeKnob ∧ t.depthKnob = s.depthKnob ∧ t.tkw = s.tkw ∧ t.dkw = s.dkw ∧ t.cfg = s.cfg ∧
      t.cmdPort = s.cmdPort ∧ t.readback = s.readback ∧ t.outTaken = s.outTaken ∧ (∀ k, t.memRead k = s.memRead k)

/-- R105: an empty block takes no stream word, puts none and changes no register. -/
def Obligations.EmptyBlockChangesNothing : Prop :=
  ∀ s : State, s.mode = .ready → s.framesLeft = 0 → exec (.process 0) s = .next s

/-- A block cut in two gives the same state and the same streams (R100, R107; 95_test_vectors P2). That the two runs agree
down to the pattern of a NaN is the model's choice (assumption log 3). It is a statement about `exec`: a step takes the
second command once the host takes the first block's words (log 9). -/
def Obligations.SplittingABlockChangesNothing : Prop :=
  ∀ (m n : Word) (s t : State), s.mode = .ready → m.toNat + n.toNat < 2 ^ 32 → 4 * m.toNat ≤ s.sampleIn.length →
    exec (.process m) s = .next t → exec (.process (m + n)) s = exec (.process n) t

/-- A PROCESS that waits for input words ends, once they arrive, as if they had been there from the start (R60, R145);
words beyond its frames stay in the stream. How a waiting PROCESS resumes, and that both runs draw the same NaN patterns, are
the model's choices (assumption log 7 and 3). -/
def Obligations.LateSamplesChangeNothing : Prop :=
  ∀ (frames : Word) (early late : List Word) (s t : State), s.mode = .ready →
    exec (.process frames) { s with sampleIn := early } = .next t →
    exec (.process frames) { s with sampleIn := early ++ late } =
      if t.framesLeft = 0 then .next { t with sampleIn := t.sampleIn ++ late }
      else step { t with sampleIn := t.sampleIn ++ late }

/-- R103: the main-right input words are taken and discarded: two input streams that differ in nothing else give the same
block. That they do so down to the pattern of a NaN is the model's choice (assumption log 3). -/
def Obligations.MainRightInputIsDiscarded : Prop :=
  ∀ (frames : Word) (xs ys : List Word) (s t u : State), s.mode = .ready → xs.length = ys.length →
    (∀ k, k % 4 ≠ 1 → xs[k]? = ys[k]?) →
    exec (.process frames) { s with sampleIn := xs } = .next t →
    exec (.process frames) { s with sampleIn := ys } = .next u → { t with sampleIn := u.sampleIn } = u

/-! ## Invariants -/

/-- The lifecycle, knob, configuration and Q invariants (R20, R29, R35, R37, R43, R7) are kept by every step. -/
def Obligations.LifecycleInvariantIsKept : Prop :=
  ∀ s t : State, s.inv = true → step s = .next t → t.inv = true

/-- The numeric ranges of R41 are kept by every step, in an ordinary configuration (assumption log 17 and 21). -/
def Obligations.NumericRangesAreKept : Prop :=
  ∀ s t : State, s.cfg.ordinary = true → s.inv = true → s.numericOk = true → step s = .next t → t.numericOk = true

/-- The invariants hold right after power-on reset, whatever the OPEN configuration values are, and for every
configuration and table that `powerOn` accepts. -/
def Obligations.InvariantsHoldAtReset : Prop :=
  State.reset.inv = true ∧ State.reset.numericOk = true ∧ State.reset.cfg.ordinary = true ∧
  Memory.wf State.reset.table = true ∧
  ∀ (c : Config) (t : Memory) (s : State), powerOn c t = .next s → s.inv = true ∧ s.numericOk = true

/-! ## Power-on -/

/-- R135: power-on reset sets MODE, FAULT_CAUSE, TKW and DKW and empties the command port, both streams and the readback
port. The model's choices in it: the configuration and the table are kept (R40, R47; assumption log 19), and the core waits
for a command word as an unchanged next state (log 8). -/
def Obligations.PowerOnResetEmptiesTheCore : Prop :=
  (∀ s : State,
    s.powerOnReset.mode = .uninit ∧ s.powerOnReset.faultCause.code = 0 ∧ s.powerOnReset.tkw = false ∧
    s.powerOnReset.dkw = false ∧ s.powerOnReset.cmdPort = [] ∧ s.powerOnReset.sampleIn = [] ∧
    s.powerOnReset.sampleOut = [] ∧ s.powerOnReset.readback = [] ∧ s.powerOnReset.cfg = s.cfg ∧
    (∀ k, s.powerOnReset.memRead k = s.memRead k) ∧ step s.powerOnReset = .next s.powerOnReset) ∧
  (∀ (s : State) (r : Reg), r ≠ .status → exec (.readReg r) s.powerOnReset =
    .next { s.powerOnReset with faultCause := .notInitialized, mode := .halted }) ∧
  State.reset.mode = .uninit ∧ State.reset.faultCause.code = 0 ∧ State.reset.tkw = false ∧ State.reset.dkw = false ∧
  State.reset.cmdPort = [] ∧ State.reset.sampleIn = [] ∧ State.reset.sampleOut = [] ∧ State.reset.readback = []

/-- R7: power-on refuses a configuration that breaks a condition of R7, and a table with an entry outside [-1, 1]; it
accepts every other. The conditions are spelled out on the words, in units of 2^-149, so that 1.0 counts 2^149. The model's
reading of R7: (g) in exact arithmetic on the binary32 F1max, and -0.0 meets a bound of 0 (assumption log 14); an entry that
a table does not list is a free value within (a) (log 4). -/
def Obligations.IllFormedConfigurationIsRefused : Prop :=
  (∀ (c : Config) (t : Memory), powerOn c t = .refused .illFormedConfiguration ∨ ∃ s, powerOn c t = .next s) ∧
  (∀ (c : Config) (t : Memory), Memory.wf t = true →
    ((∃ s, powerOn c t = .next s ∧ s.cfg = c ∧ s.table = t) ↔
      (∀ i, i < 1024 → F32.isNaN (Memory.read t i) = false ∧
        -(2 ^ 149) ≤ F32.val (Memory.read t i) ∧ F32.val (Memory.read t i) ≤ 2 ^ 149) ∧
      (F32.isNaN c.centreFrequency = false ∧ F32.isNaN c.maxFrequencyDeviation = false ∧
        F32.isNaN c.initDeviation = false ∧ F32.val c.maxFrequencyDeviation ≤ F32.val c.centreFrequency ∧
        0 ≤ F32.val c.initDeviation ∧ F32.val c.initDeviation ≤ F32.val c.maxFrequencyDeviation) ∧
      (F32.isNaN c.qConst = false ∧ 0 < F32.val c.qConst ∧ F32.val c.qConst < 2 * 2 ^ 149) ∧
      (F32.isNaN c.initLfoRate = false ∧ F32.isNaN c.maxLfoRate = false ∧ 0 ≤ F32.val c.initLfoRate ∧
        F32.val c.initLfoRate ≤ F32.val c.maxLfoRate ∧ 0 ≤ F32.val c.maxLfoRate) ∧
      (F32.isFinite c.sampleRate = true ∧ 0 < F32.val c.sampleRate) ∧
      (c.tableSize = 1024 ∧ c.tableMask = 1023) ∧
      (∀ f1Max : Word,
        f1Max = F32.div 0x7FC00000
          (F32.mul 0x7FC00000 0x40C90FDB (F32.add 0x7FC00000 c.centreFrequency c.maxFrequencyDeviation)) c.sampleRate →
        F32.isFinite f1Max = true ∧
        F32.val f1Max * F32.val f1Max + 2 * (F32.val c.qConst * F32.val f1Max) < 4 * (2 ^ 149 * 2 ^ 149) ∧
        F32.val c.qConst * F32.val f1Max < 2 * (2 ^ 149 * 2 ^ 149)))) ∧
  (∀ k, F32.le 0xBF800000 (Memory.unlisted k) = true ∧ F32.le (Memory.unlisted k) 0x3F800000 = true) ∧
  Config.default.wellFormed = true ∧ Config.default.f1Max = 0x3E9A25C1

/-! ## Arithmetic -/

/-- R11, I1: a result that is no NaN does not depend on the free NaN value. -/
def Obligations.NumbersDoNotDependOnTheFreeNaN : Prop :=
  ∀ a b nan nan' : Word, F32.isNaN nan = true →
    (F32.isNaN (F32.add nan a b) = false → F32.add nan' a b = F32.add nan a b) ∧
    (F32.isNaN (F32.sub nan a b) = false → F32.sub nan' a b = F32.sub nan a b) ∧
    (F32.isNaN (F32.mul nan a b) = false → F32.mul nan' a b = F32.mul nan a b) ∧
    (F32.isNaN (F32.div nan a b) = false → F32.div nan' a b = F32.div nan a b)

/-- R11: each operation on finite operands answers a value nearest to the exact result, and an even one where another is
as near. Values are in units of 2^-149; an infinity counts as 2^128, where round-to-nearest overflows: that a
result of at least 2^128 - 2^103 gives an infinity is presumed from IEEE 754, which R11 names (assumption log 13). -/
def Obligations.ArithmeticRoundsToNearestEven : Prop :=
  (∀ a b nan w : Word, F32.isFinite a = true → F32.isFinite b = true → F32.isNaN w = false →
    ((F32.val a + F32.val b - F32.val (F32.add nan a b)).natAbs ≤ (F32.val a + F32.val b - F32.val w).natAbs ∧
      ((F32.val a + F32.val b - F32.val (F32.add nan a b)).natAbs = (F32.val a + F32.val b - F32.val w).natAbs →
        F32.val w = F32.val (F32.add nan a b) ∨ (F32.add nan a b).toNat % 2 = 0)) ∧
    ((F32.val a - F32.val b - F32.val (F32.sub nan a b)).natAbs ≤ (F32.val a - F32.val b - F32.val w).natAbs ∧
      ((F32.val a - F32.val b - F32.val (F32.sub nan a b)).natAbs = (F32.val a - F32.val b - F32.val w).natAbs →
        F32.val w = F32.val (F32.sub nan a b) ∨ (F32.sub nan a b).toNat % 2 = 0)) ∧
    ((F32.val a * F32.val b - F32.val (F32.mul nan a b) * 2 ^ 149).natAbs ≤
        (F32.val a * F32.val b - F32.val w * 2 ^ 149).natAbs ∧
      ((F32.val a * F32.val b - F32.val (F32.mul nan a b) * 2 ^ 149).natAbs =
          (F32.val a * F32.val b - F32.val w * 2 ^ 149).natAbs →
        F32.val w = F32.val (F32.mul nan a b) ∨ (F32.mul nan a b).toNat % 2 = 0)) ∧
    (F32.isZero b = false →
      (F32.val a * 2 ^ 149 - F32.val (F32.div nan a b) * F32.val b).natAbs ≤
          (F32.val a * 2 ^ 149 - F32.val w * F32.val b).natAbs ∧
      ((F32.val a * 2 ^ 149 - F32.val (F32.div nan a b) * F32.val b).natAbs =
          (F32.val a * 2 ^ 149 - F32.val w * F32.val b).natAbs →
        F32.val w = F32.val (F32.div nan a b) ∨ (F32.div nan a b).toNat % 2 = 0))) ∧
  (∀ n w : Word, F32.isNaN w = false →
    ((n.toInt * 2 ^ 149 - F32.val (F32.ofI32 n)).natAbs ≤ (n.toInt * 2 ^ 149 - F32.val w).natAbs ∧
      ((n.toInt * 2 ^ 149 - F32.val (F32.ofI32 n)).natAbs = (n.toInt * 2 ^ 149 - F32.val w).natAbs →
        F32.val w = F32.val (F32.ofI32 n) ∨ (F32.ofI32 n).toNat % 2 = 0)))

/-! ## The end of a PROCESS -/

/-- R60, R107, R145, 93 I17: a PROCESS whose frames have run holds the core, whatever is on the command port, until the
host takes the last of its 4n output words; then the next command is taken. How the core waits, and that it runs its frames
ahead of the host's taking, are the model's choices (assumption log 8 and 9). -/
def Obligations.ProcessEndsWhenItsOutputIsTaken : Prop :=
  ∀ (frames : Word) (s : State) (rest : List Word), s.mode = .ready → s.framesLeft = 0 → s.sampleOut = [] →
    s.outTaken = 0 → decodeCommand s.cmdPort = .command (.process frames) rest →
    4 * frames.toNat ≤ s.sampleIn.length →
    ∃ t, step s = .next t ∧ t.framesLeft = 0 ∧ t.cmdPort = rest ∧ t.sampleOut.length = 4 * frames.toNat ∧
      (∀ k, k < 4 * frames.toNat →
        step (t.takeSamples k).2 = .next (t.takeSamples k).2 ∧
        step (t.acceptSamples k) = .next (t.acceptSamples k)) ∧
      (∀ (i : Instr) (later : List Word), decodeCommand rest = .command i later →
        step (t.takeSamples (4 * frames.toNat)).2 = exec i { (t.takeSamples (4 * frames.toNat)).2 with cmdPort := later } ∧
        step (t.acceptSamples (4 * frames.toNat)) = exec i { t.acceptSamples (4 * frames.toNat) with cmdPort := later })
end

