-- ==== Sys2Proof/Laws/Decode.lean ====
section
/-! SUPPORT. Laws of the decoder: what each header of 30_encoding R70 decodes to. -/

namespace Sys2Proof

theorem Reg.ofNumber_number (r : Reg) : Reg.ofNumber r.number = r := by
  cases r <;> rfl

theorem decodeHeader_init (platformId apiVersion : Word) :
    decodeHeader (Instr.init platformId apiVersion).header = .ok .init :=
  (by decide : decodeHeader 0x00000000 = .ok .init)

theorem decodeHeader_setParamTime (raw : Word) :
    decodeHeader (Instr.setParamTime raw).header = .ok .setParamTime :=
  (by decide : decodeHeader 0x10000000 = .ok .setParamTime)

theorem decodeHeader_setParamDepth (raw : Word) :
    decodeHeader (Instr.setParamDepth raw).header = .ok .setParamDepth :=
  (by decide : decodeHeader 0x10000001 = .ok .setParamDepth)

/-- The fields of a SET_PARAM header. -/
theorem setParamHeader_fields (pidx : BitVec 8) :
    (0x10000000 ||| pidx.zeroExtend 32 : Word).extractLsb' 28 4 = 1 ∧
    (0x10000000 ||| pidx.zeroExtend 32 : Word).extractLsb' 8 20 = 0 ∧
    (0x10000000 ||| pidx.zeroExtend 32 : Word).extractLsb' 0 8 = pidx := by
  refine ⟨?_, ?_, ?_⟩ <;> apply BitVec.eq_of_getLsbD_eq <;> intro i hi <;> simp only [BitVec.getLsbD_extractLsb',
    BitVec.getLsbD_or, BitVec.getLsbD_setWidth, BitVec.truncate_eq_setWidth] <;> interval_cases i <;> simp

theorem decodeHeader_setParamNone {pidx : BitVec 8} (h : 2 ≤ pidx.toNat) (raw : Word) :
    decodeHeader (Instr.setParamNone pidx raw).header = .ok (.setParamNone pidx) := by
  obtain ⟨h1, h2, h3⟩ := setParamHeader_fields pidx
  have n0 : pidx ≠ 0 := fun e => by rw [e] at h; exact absurd h (by decide)
  have n1 : pidx ≠ 1 := fun e => by rw [e] at h; exact absurd h (by decide)
  have h1' : ((0x10000000 ||| pidx.zeroExtend 32 : Word).extractLsb' 28 4).toNat = 1 := by rw [h1]; rfl
  simp only [Instr.header, decodeHeader, h1', h2, h3, if_true, if_neg n0, if_neg n1]

theorem decodeHeader_process (frames : Word) : decodeHeader (Instr.process frames).header = .ok .process :=
  (by decide : decodeHeader 0x20000000 = .ok .process)

theorem decodeHeader_readReg (r : Reg) : decodeHeader (Instr.readReg r).header = .ok (.readReg r) := by
  unfold Instr.header
  cases r <;> decide

/-- A byte transport carries a word and gives it back (20_memory R49). -/
theorem wordsOfBytes_wordToBytes (w : Word) (rest : List Byte) :
    wordsOfBytes (wordToBytes w ++ rest) = w :: wordsOfBytes rest := by
  have e : w.extractLsb' 24 8 ++ w.extractLsb' 16 8 ++ w.extractLsb' 8 8 ++ w.extractLsb' 0 8 = w := by
    apply BitVec.eq_of_getLsbD_eq
    intro i hi
    simp only [BitVec.getLsbD_append, BitVec.getLsbD_extractLsb']
    interval_cases i <;> simp
  simp only [wordToBytes, List.cons_append, List.nil_append, wordsOfBytes]
  rw [e]

end Sys2Proof
end

