-- ==== Sys2Proof/Laws/F32.lean ====
section
/-! SUPPORT. Laws of the binary32 primitives: rounding is monotone, and exact on every representable value. -/

namespace Sys2Proof.F32

/-! ## Words, signs and magnitude bits -/

theorem pack_toNat {m : Nat} (h : m < 2 ^ 31) (s : Bool) :
    (pack s m).toNat = (if s then 2 ^ 31 else 0) + m := by
  simp only [pack, BitVec.toNat_ofNat]
  apply Nat.mod_eq_of_lt
  cases s
  · simp only [Bool.false_eq_true, if_false]; omega
  · simp only [if_true]; omega

theorem sign_pack {m : Nat} (h : m < 2 ^ 31) (s : Bool) : sign (pack s m) = s := by
  simp only [sign, pack_toNat h]
  cases s
  · simp only [Bool.false_eq_true, if_false, decide_eq_false_iff_not]; omega
  · simp only [if_true, decide_eq_true_eq]; omega

theorem bits_pack {m : Nat} (h : m < 2 ^ 31) (s : Bool) : (pack s m).toNat % 2 ^ 31 = m := by
  cases s <;> simp [pack_toNat h] <;> omega

theorem mag_pack {m : Nat} (h : m < 2 ^ 31) (s : Bool) : mag (pack s m) = magOfBits m := by
  rw [mag, bits_pack h]

theorem expo_pack {m : Nat} (h : m < 2 ^ 31) (s : Bool) : expo (pack s m) = m / 2 ^ 23 := by
  have := bits_pack h s
  simp only [expo]
  omega

theorem frac_pack {m : Nat} (h : m < 2 ^ 31) (s : Bool) : frac (pack s m) = m % 2 ^ 23 := by
  have := bits_pack h s
  simp only [frac]
  omega

/-- A word is its sign and its magnitude bits. -/
theorem pack_sign_bits (w : Word) : pack (sign w) (w.toNat % 2 ^ 31) = w := by
  apply BitVec.eq_of_toNat_eq
  rw [pack_toNat (Nat.mod_lt _ (by decide))]
  have := w.isLt
  simp only [sign, decide_eq_true_eq]
  split <;> omega

/-- Magnitude bits of a word that is no NaN. -/
theorem bits_le_of_not_nan {w : Word} (h : isNaN w = false) : w.toNat % 2 ^ 31 ≤ 0x7F800000 := by
  by_contra hc
  have : isNaN w = true := by
    simp only [isNaN, Bool.and_eq_true, decide_eq_true_eq]
    simp only [expo, frac]
    omega
  rw [h] at this
  exact Bool.false_ne_true this

/-! ## Division to nearest -/

theorem divNearestEven_one (n : Nat) : divNearestEven n 1 = n := by
  simp [divNearestEven, Nat.mod_one]

theorem divNearestEven_mul {d : Nat} (hd : 0 < d) (n : Nat) : divNearestEven (n * d) d = n := by
  simp [divNearestEven, Nat.mul_div_cancel _ hd, hd]

theorem div_le_divNearestEven (n d : Nat) : n / d ≤ divNearestEven n d := by
  simp only [divNearestEven]
  split
  · exact Nat.le_refl _
  · split <;> omega

theorem divNearestEven_le_succ (n d : Nat) : divNearestEven n d ≤ n / d + 1 := by
  simp only [divNearestEven]
  split
  · omega
  · split <;> omega

/-- Rounding a larger ratio gives no smaller a result. -/
theorem divNearestEven_mono {n d n' d' : Nat} (hd : 0 < d) (hd' : 0 < d') (h : n * d' ≤ n' * d) :
    divNearestEven n d ≤ divNearestEven n' d' := by
  have hq : n / d ≤ n' / d' := by
    rw [Nat.le_div_iff_mul_le hd']
    have h1 : n / d * d ≤ n := Nat.div_mul_le_self n d
    have h2 : n / d * d * d' ≤ n' * d := le_trans (Nat.mul_le_mul_right d' h1) h
    have h3 : n / d * d' * d ≤ n' * d := by nlinarith [h2]
    exact Nat.le_of_mul_le_mul_right h3 hd
  rcases Nat.lt_or_eq_of_le hq with hlt | heq
  · calc divNearestEven n d ≤ n / d + 1 := divNearestEven_le_succ n d
      _ ≤ n' / d' := hlt
      _ ≤ divNearestEven n' d' := div_le_divNearestEven n' d'
  · have e1 : n = d * (n / d) + n % d := (Nat.div_add_mod n d).symm
    have e2 : n' = d' * (n' / d') + n' % d' := (Nat.div_add_mod n' d').symm
    have hr : n % d * d' ≤ n' % d' * d := by
      rw [← heq] at e2
      generalize n / d = q at e1 e2
      generalize n % d = r at e1 ⊢
      generalize n' % d' = r' at e2 ⊢
      subst e1 e2
      nlinarith [h]
    simp only [divNearestEven, ← heq]
    generalize n % d = r at hr ⊢
    generalize n' % d' = r' at hr ⊢
    generalize n / d = q
    have key1 : 2 * r' < d' → 2 * r < d := fun h1 => by
      by_contra h2
      have h2 : d ≤ 2 * r := by omega
      nlinarith
    have key2 : d < 2 * r → d' < 2 * r' := fun h1 => by
      by_contra h2
      have h2 : 2 * r' ≤ d' := by omega
      nlinarith
    split
    · split
      · exact Nat.le_refl _
      · split <;> omega
    · have n1 : ¬2 * r' < d' := fun h1 => by have := key1 h1; contradiction
      rw [if_neg n1]
      split
      · rw [if_pos (key2 (by assumption))]
      · split <;> omega

/-! ## Rounding to magnitude bits -/

theorem scale_eq_zero {n d : Nat} (h : n / d < 2 ^ 24) : scale n d = 0 := by
  simp only [scale]
  by_cases h0 : n / d = 0
  · simp [h0]
  · have := (Nat.log2_lt h0).2 h
    omega

/-- Where the scale is not 0, the quotient has exactly 24 significant bits above it. -/
theorem scale_bounds {n d : Nat} (h : 2 ^ 24 ≤ n / d) :
    2 ^ (scale n d + 23) ≤ n / d ∧ n / d < 2 ^ (scale n d + 24) := by
  have h0 : n / d ≠ 0 := by intro h0; rw [h0] at h; exact absurd h (by decide)
  have hl : 24 ≤ Nat.log2 (n / d) := (Nat.le_log2 h0).2 h
  have e : scale n d + 23 = Nat.log2 (n / d) := by simp only [scale]; omega
  constructor
  · rw [e]; exact Nat.log2_self_le h0
  · rw [show scale n d + 24 = Nat.log2 (n / d) + 1 by omega]; exact Nat.lt_log2_self

/-- The quotient at its scale, before rounding, has at most 24 bits. -/
theorem quotient_lt {n d : Nat} : n / (d * 2 ^ scale n d) < 2 ^ 24 := by
  rw [← Nat.div_div_eq_div_mul, Nat.div_lt_iff_lt_mul (Nat.two_pow_pos _)]
  by_cases h : n / d < 2 ^ 24
  · rw [scale_eq_zero h]; simpa using h
  · have := (scale_bounds (Nat.le_of_not_lt h)).2
    rwa [Nat.pow_add, Nat.mul_comm] at this

/-- Above the subnormals it has exactly 24. -/
theorem le_quotient {n d : Nat} (h : scale n d ≠ 0) : 2 ^ 23 ≤ n / (d * 2 ^ scale n d) := by
  have hb : 2 ^ 24 ≤ n / d := by
    by_contra hlt
    exact h (scale_eq_zero (Nat.lt_of_not_le hlt))
  rw [← Nat.div_div_eq_div_mul, Nat.le_div_iff_mul_le (Nat.two_pow_pos _), Nat.mul_comm, ← Nat.pow_add]
  exact (scale_bounds hb).1

theorem roundMag_le_inf (n d : Nat) : roundMag n d ≤ 0x7F800000 := Nat.min_le_right _ _

theorem roundMag_lt (n d : Nat) : roundMag n d < 2 ^ 31 := lt_of_le_of_lt (roundMag_le_inf n d) (by decide)

theorem roundMag_zero (d : Nat) : roundMag 0 d = 0 := by
  simp [roundMag, scale, divNearestEven]

/-- Rounding is monotone: a larger magnitude gives no smaller bits. -/
theorem roundMag_mono {n d n' d' : Nat} (hd : 0 < d) (hd' : 0 < d') (h : n * d' ≤ n' * d) :
    roundMag n d ≤ roundMag n' d' := by
  have hq : n / d ≤ n' / d' := by
    rw [Nat.le_div_iff_mul_le hd']
    have h1 : n / d * d ≤ n := Nat.div_mul_le_self n d
    have h2 : n / d * d * d' ≤ n' * d := le_trans (Nat.mul_le_mul_right d' h1) h
    have h3 : n / d * d' * d ≤ n' * d := by nlinarith [h2]
    exact Nat.le_of_mul_le_mul_right h3 hd
  have hk : scale n d ≤ scale n' d' := by
    simp only [scale]
    have : Nat.log2 (n / d) ≤ Nat.log2 (n' / d') := by
      by_cases h0 : n / d = 0
      · simp [h0]
      · have h0' : n' / d' ≠ 0 := fun e => h0 (Nat.le_zero.1 (e ▸ hq))
        exact (Nat.le_log2 h0').2 (le_trans (Nat.log2_self_le h0) hq)
    omega
  simp only [roundMag]
  apply min_le_min_right
  rcases Nat.lt_or_eq_of_le hk with hlt | heq
  · have a : divNearestEven n (d * 2 ^ scale n d) ≤ 2 ^ 24 :=
      le_trans (divNearestEven_le_succ _ _) quotient_lt
    have b : 2 ^ 23 ≤ divNearestEven n' (d' * 2 ^ scale n' d') :=
      le_trans (le_quotient (by omega)) (div_le_divNearestEven _ _)
    have c : (scale n d + 1) * 2 ^ 23 ≤ scale n' d' * 2 ^ 23 := Nat.mul_le_mul_right _ hlt
    omega
  · rw [← heq]
    apply Nat.add_le_add_left
    apply divNearestEven_mono (Nat.mul_pos hd (Nat.two_pow_pos _)) (Nat.mul_pos hd' (Nat.two_pow_pos _))
    calc n * (d' * 2 ^ scale n d) = n * d' * 2 ^ scale n d := by ring
      _ ≤ n' * d * 2 ^ scale n d := Nat.mul_le_mul_right _ h
      _ = n' * (d * 2 ^ scale n d) := by ring

/-- A representable magnitude over any denominator rounds to its own bits: rounding is exact where it can be. -/
theorem roundMag_exact {m d : Nat} (hd : 0 < d) (h : m ≤ 0x7F800000) : roundMag (magOfBits m * d) d = m := by
  simp only [roundMag, scale, Nat.mul_div_cancel _ hd, magOfBits]
  have hm := Nat.div_add_mod m (2 ^ 23)
  generalize he : m / 2 ^ 23 = e at hm ⊢
  have hf : m % 2 ^ 23 < 2 ^ 23 := Nat.mod_lt _ (by decide)
  generalize m % 2 ^ 23 = f at hm hf ⊢
  by_cases h0 : e = 0
  · subst h0
    have hlt : m < 2 ^ 23 := by omega
    have hl : Nat.log2 m - 23 = 0 := by
      by_cases hz : m = 0
      · simp [hz]
      · have := (Nat.log2_lt hz).2 hlt
        omega
    simp only [if_true, hl, Nat.pow_zero, Nat.mul_one, Nat.zero_mul, Nat.zero_add, divNearestEven_mul hd]
    omega
  · have hlo : 2 ^ (e + 22) ≤ (2 ^ 23 + f) * 2 ^ (e - 1) := by
      rw [show e + 22 = 23 + (e - 1) by omega, Nat.pow_add]
      exact Nat.mul_le_mul_right _ (by omega)
    have hhi : (2 ^ 23 + f) * 2 ^ (e - 1) < 2 ^ (e + 23) := by
      rw [show e + 23 = 24 + (e - 1) by omega, Nat.pow_add 2 24]
      exact Nat.mul_lt_mul_of_pos_right (by omega) (Nat.two_pow_pos _)
    have hz : (2 ^ 23 + f) * 2 ^ (e - 1) ≠ 0 := by
      have := Nat.two_pow_pos (e + 22)
      omega
    have hl : Nat.log2 ((2 ^ 23 + f) * 2 ^ (e - 1)) - 23 = e - 1 := by
      have h1 := (Nat.le_log2 hz).2 hlo
      have h2 := (Nat.log2_lt hz).2 hhi
      omega
    rw [if_neg h0, hl, Nat.mul_assoc, Nat.mul_comm (2 ^ (e - 1)) d,
      divNearestEven_mul (Nat.mul_pos hd (Nat.two_pow_pos _))]
    have : (e - 1) * 2 ^ 23 + (2 ^ 23 + f) = m := by
      obtain ⟨k, rfl⟩ : ∃ k, e = k + 1 := ⟨e - 1, by omega⟩
      omega
    rw [this]
    exact Nat.min_eq_left h

theorem roundMag_magOfBits {m : Nat} (h : m ≤ 0x7F800000) : roundMag (magOfBits m) 1 = m := by
  have e := roundMag_exact Nat.one_pos h
  rwa [Nat.mul_one] at e

/-- Bits and magnitudes are ordered alike. -/
theorem magOfBits_le_iff {a b : Nat} (ha : a ≤ 0x7F800000) (hb : b ≤ 0x7F800000) :
    magOfBits a ≤ magOfBits b ↔ a ≤ b := by
  have mono : ∀ {x y : Nat}, x ≤ 0x7F800000 → y ≤ 0x7F800000 → magOfBits x ≤ magOfBits y → x ≤ y := by
    intro x y hx hy h
    rw [← roundMag_magOfBits hx, ← roundMag_magOfBits hy]
    exact roundMag_mono (by decide) (by decide) (by simpa using h)
  constructor
  · exact mono ha hb
  · intro h
    by_contra hlt
    have e : a = b := Nat.le_antisymm h (mono hb ha (by omega))
    subst e
    exact hlt (Nat.le_refl _)

/-! ## Rounded words -/

theorem sign_round (s : Bool) (n d : Nat) : sign (round s n d) = s := sign_pack (roundMag_lt n d) s

theorem mag_round (s : Bool) (n d : Nat) : mag (round s n d) = magOfBits (roundMag n d) := mag_pack (roundMag_lt n d) s

/-- A rounded result is never a NaN. -/
theorem isNaN_round (s : Bool) (n d : Nat) : isNaN (round s n d) = false := by
  have h := roundMag_le_inf n d
  have hl := roundMag_lt n d
  simp only [round, isNaN, expo_pack hl, frac_pack hl, Bool.and_eq_false_iff, decide_eq_false_iff_not, ne_eq,
    Decidable.not_not]
  omega

/-- Rounding the exact value of a word that is no NaN gives the word back. -/
theorem round_mag {w : Word} (h : isNaN w = false) : round (sign w) (mag w) 1 = w := by
  rw [round, mag, roundMag_magOfBits (bits_le_of_not_nan h), pack_sign_bits]

/-! ## The free NaN result -/

/-- Whatever the operands are, an operation answers its NaN argument or a word that does not depend on it. -/
theorem add_nan_or (a b : Word) : (∀ n, add n a b = n) ∨ ∃ w, ∀ n, add n a b = w := by
  unfold add
  dsimp only
  split
  · exact .inl fun _ => rfl
  · split
    · split
      · exact .inl fun _ => rfl
      · exact .inr ⟨_, fun _ => rfl⟩
    · split
      · exact .inr ⟨_, fun _ => rfl⟩
      · split
        · exact .inr ⟨_, fun _ => rfl⟩
        · exact .inr ⟨_, fun _ => rfl⟩

theorem sub_nan_or (a b : Word) : (∀ n, sub n a b = n) ∨ ∃ w, ∀ n, sub n a b = w := add_nan_or a (neg b)

theorem mul_nan_or (a b : Word) : (∀ n, mul n a b = n) ∨ ∃ w, ∀ n, mul n a b = w := by
  unfold mul
  dsimp only
  split
  · exact .inl fun _ => rfl
  · split
    · split
      · exact .inl fun _ => rfl
      · exact .inr ⟨_, fun _ => rfl⟩
    · split
      · split
        · exact .inl fun _ => rfl
        · exact .inr ⟨_, fun _ => rfl⟩
      · exact .inr ⟨_, fun _ => rfl⟩

theorem div_nan_or (a b : Word) : (∀ n, div n a b = n) ∨ ∃ w, ∀ n, div n a b = w := by
  unfold div
  dsimp only
  split
  · exact .inl fun _ => rfl
  · split
    · split
      · exact .inl fun _ => rfl
      · exact .inr ⟨_, fun _ => rfl⟩
    · split
      · exact .inr ⟨_, fun _ => rfl⟩
      · split
        · split
          · exact .inl fun _ => rfl
          · exact .inr ⟨_, fun _ => rfl⟩
        · exact .inr ⟨_, fun _ => rfl⟩

end Sys2Proof.F32
end

