-- ==== Sys2Proof/Laws/Memory.lean ====
section
/-! SUPPORT. Laws of the random table: reading, placing an entry, and the canonical form. -/

namespace Sys2Proof.Machine

theorem Memory.wf_reset : Memory.wf State.reset.table = true := rfl

theorem Memory.rising_mono {m : Memory} {lo lo' : Nat} (h : lo ≤ lo') (hm : Memory.rising lo' m = true) :
    Memory.rising lo m = true := by
  cases m with
  | nil => rfl
  | cons c cells =>
    simp only [Memory.rising, Bool.and_eq_true, decide_eq_true_eq] at hm ⊢
    exact ⟨le_trans h hm.1, hm.2⟩

/-- Below the first listed index nothing is listed. -/
theorem Memory.read_below {m : Memory} {lo i : Nat} (hm : Memory.rising lo m = true) (hi : i < lo) :
    Memory.read m i = Memory.unlisted i := by
  induction m generalizing lo with
  | nil => rfl
  | cons c cells ih =>
    simp only [Memory.rising, Bool.and_eq_true, decide_eq_true_eq] at hm
    have hne : i ≠ c.1 := by omega
    simp only [Memory.read, if_neg hne]
    exact ih hm.2 (by omega)

/-- A listed entry reads as its cell. -/
theorem Memory.read_listed {m : Memory} {lo : Nat} (hm : Memory.rising lo m = true) {c : Nat × Word} (hc : c ∈ m) :
    Memory.read m c.1 = c.2 ∧ lo ≤ c.1 := by
  induction m generalizing lo with
  | nil => simp at hc
  | cons d cells ih =>
    obtain ⟨j, v⟩ := d
    simp only [Memory.rising, Bool.and_eq_true, decide_eq_true_eq] at hm
    rcases List.mem_cons.1 hc with rfl | h
    · exact ⟨by simp [Memory.read], hm.1⟩
    · have hr := ih hm.2 h
      have hne : c.1 ≠ j := by omega
      simp only [Memory.read, if_neg hne]
      exact ⟨hr.1, by omega⟩

/-- An entry reads as an unlisted one or as some cell. -/
theorem Memory.read_cases (m : Memory) (i : Nat) :
    Memory.read m i = Memory.unlisted i ∨ ∃ c ∈ m, Memory.read m i = c.2 := by
  induction m with
  | nil => exact .inl rfl
  | cons d cells ih =>
    obtain ⟨j, v⟩ := d
    simp only [Memory.read]
    split
    · exact .inr ⟨_, List.mem_cons_self, rfl⟩
    · exact ih.imp_right fun ⟨c, hc, h⟩ => ⟨c, List.mem_cons_of_mem _ hc, h⟩

theorem Memory.read_place_same {m : Memory} {lo : Nat} (hm : Memory.rising lo m = true) (i : Nat) (w : Word) :
    Memory.read (Memory.place m i w) i = w := by
  induction m generalizing lo with
  | nil =>
    simp only [Memory.place]
    split
    · next h => exact h.symm
    · simp [Memory.read]
  | cons c cells ih =>
    obtain ⟨j, v⟩ := c
    simp only [Memory.rising, Bool.and_eq_true, decide_eq_true_eq] at hm
    simp only [Memory.place]
    split
    · next hij =>
      split
      · next h =>
        have hne : i ≠ j := by omega
        rw [h]
        simp only [Memory.read, if_neg hne]
        exact Memory.read_below hm.2 (by omega)
      · simp [Memory.read]
    · split
      · next hij =>
        split
        · next h => rw [h]; exact Memory.read_below hm.2 (by omega)
        · simp [Memory.read]
      · next hij => simp only [Memory.read, if_neg hij]; exact ih hm.2

theorem Memory.read_place_other {m : Memory} {i k : Nat} (hk : k ≠ i) (w : Word) :
    Memory.read (Memory.place m i w) k = Memory.read m k := by
  induction m with
  | nil =>
    simp only [Memory.place]
    split
    · rfl
    · simp [Memory.read, hk]
  | cons c cells ih =>
    obtain ⟨j, v⟩ := c
    simp only [Memory.place]
    split
    · split
      · rfl
      · rw [Memory.read, if_neg hk]
    · split
      · next hij =>
        subst hij
        split
        · simp [Memory.read, hk]
        · simp [Memory.read, hk]
      · simp only [Memory.read, ih]

theorem Memory.rising_place {m : Memory} {lo i : Nat} (hm : Memory.rising lo m = true) (hi : lo ≤ i) (w : Word) :
    Memory.rising lo (Memory.place m i w) = true := by
  induction m generalizing lo with
  | nil =>
    simp only [Memory.place]
    split
    · rfl
    · simp [Memory.rising, hi]
  | cons c cells ih =>
    obtain ⟨j, v⟩ := c
    have hm' := hm
    simp only [Memory.rising, Bool.and_eq_true, decide_eq_true_eq] at hm
    simp only [Memory.place]
    split
    · split
      · exact hm'
      · next hij _ =>
        simp only [Memory.rising, Bool.and_eq_true, decide_eq_true_eq]
        exact ⟨hi, by omega, hm.2⟩
    · split
      · next hij =>
        subst hij
        split
        · exact Memory.rising_mono (by omega) hm.2
        · simp only [Memory.rising, Bool.and_eq_true, decide_eq_true_eq]
          exact ⟨hi, hm.2⟩
      · simp only [Memory.rising, Bool.and_eq_true, decide_eq_true_eq]
        exact ⟨hm.1, ih hm.2 (by omega)⟩

/-- Every cell of a table with an entry placed is one of the table's or the placed one. -/
theorem Memory.mem_place {m : Memory} {i : Nat} {w : Word} {c : Nat × Word} (h : c ∈ Memory.place m i w) :
    c ∈ m ∨ (c = (i, w) ∧ w ≠ Memory.unlisted i) := by
  induction m with
  | nil =>
    simp only [Memory.place] at h
    split at h
    · simp at h
    · next hw => exact .inr ⟨by simpa using h, hw⟩
  | cons d cells ih =>
    obtain ⟨j, v⟩ := d
    simp only [Memory.place] at h
    split at h
    · split at h
      · exact .inl h
      · next hw =>
        rcases List.mem_cons.1 h with rfl | h
        · exact .inr ⟨rfl, hw⟩
        · exact .inl h
    · split at h
      · split at h
        · exact .inl (List.mem_cons_of_mem _ h)
        · next hw =>
          rcases List.mem_cons.1 h with rfl | h
          · exact .inr ⟨rfl, hw⟩
          · exact .inl (List.mem_cons_of_mem _ h)
      · rcases List.mem_cons.1 h with rfl | h
        · exact .inl List.mem_cons_self
        · exact (ih h).imp_left (List.mem_cons_of_mem _)

/-- Placing an entry keeps the canonical form. No command writes the table (20_memory R47), so this is the only
operation that changes one. -/
theorem Memory.wf_place {m : Memory} (hm : Memory.wf m = true) {i : Nat} (hi : i < 1024) (w : Word) :
    Memory.wf (Memory.place m i w) = true := by
  simp only [Memory.wf, Bool.and_eq_true, List.all_eq_true, decide_eq_true_eq] at hm ⊢
  refine ⟨Memory.rising_place hm.1 (Nat.zero_le i) w, fun c hc => ?_⟩
  rcases Memory.mem_place hc with h | ⟨rfl, hw⟩
  · exact hm.2 c h
  · exact ⟨hi, hw⟩

end Sys2Proof.Machine
end

