-- ==== Sys2Proof/Laws/PerInstr.lean ====
section
/-! SUPPORT. Families of statements about every command as syntax, one lemma a constructor. -/

namespace Sys2Proof.Laws.Length

/-- The opcode field of a command's header alone gives the number of its operand words (30_encoding R61). -/
def Statement (i : Instr) : Prop := operandCount i.header = i.operands.length

theorem init (platformId apiVersion : Word) : Statement (.init platformId apiVersion) := (by decide : operandCount 0x00000000 = 2)

theorem setParamTime (raw : Word) : Statement (.setParamTime raw) := (by decide : operandCount 0x10000000 = 1)

theorem setParamDepth (raw : Word) : Statement (.setParamDepth raw) := (by decide : operandCount 0x10000001 = 1)

theorem setParamNone (pidx : BitVec 8) (raw : Word) : Statement (.setParamNone pidx raw) := by
  have h : ((0x10000000 ||| pidx.zeroExtend 32 : Word).extractLsb' 28 4).toNat = 1 := by
    rw [(setParamHeader_fields pidx).1]; rfl
  simp only [Statement, operandCount, Instr.header, h, Instr.operands, List.length_cons, List.length_nil]

theorem process (frames : Word) : Statement (.process frames) := (by decide : operandCount 0x20000000 = 1)

theorem readReg (reg : Reg) : Statement (.readReg reg) := by
  unfold Statement Instr.header Instr.operands
  cases reg <;> decide

end Sys2Proof.Laws.Length
end

