-- ==== Sys2Proof/Laws/State.lean ====
section
/-! SUPPORT. For each update of State, one lemma a field, and for each internal operation of the core what it leaves
as it was, so that no later proof unfolds a record update. -/

namespace Sys2Proof.Machine

/-! ## drew -/

section
variable (s : State) (k : Nat)
@[simp] theorem State.drew_cfg : (s.drew k).cfg = s.cfg := rfl
@[simp] theorem State.drew_table : (s.drew k).table = s.table := rfl
@[simp] theorem State.drew_mode : (s.drew k).mode = s.mode := rfl
@[simp] theorem State.drew_faultCause : (s.drew k).faultCause = s.faultCause := rfl
@[simp] theorem State.drew_phase : (s.drew k).phase = s.phase := rfl
@[simp] theorem State.drew_rate : (s.drew k).rate = s.rate := rfl
@[simp] theorem State.drew_tableIndex : (s.drew k).tableIndex = s.tableIndex := rfl
@[simp] theorem State.drew_d1 : (s.drew k).d1 = s.d1 := rfl
@[simp] theorem State.drew_d2 : (s.drew k).d2 = s.d2 := rfl
@[simp] theorem State.drew_q : (s.drew k).q = s.q := rfl
@[simp] theorem State.drew_f : (s.drew k).f = s.f := rfl
@[simp] theorem State.drew_h : (s.drew k).h = s.h := rfl
@[simp] theorem State.drew_b : (s.drew k).b = s.b := rfl
@[simp] theorem State.drew_l : (s.drew k).l = s.l := rfl
@[simp] theorem State.drew_n : (s.drew k).n = s.n := rfl
@[simp] theorem State.drew_f1 : (s.drew k).f1 = s.f1 := rfl
@[simp] theorem State.drew_depthKnob : (s.drew k).depthKnob = s.depthKnob := rfl
@[simp] theorem State.drew_timeKnob : (s.drew k).timeKnob = s.timeKnob := rfl
@[simp] theorem State.drew_effectDepth : (s.drew k).effectDepth = s.effectDepth := rfl
@[simp] theorem State.drew_tkw : (s.drew k).tkw = s.tkw := rfl
@[simp] theorem State.drew_dkw : (s.drew k).dkw = s.dkw := rfl
@[simp] theorem State.drew_framesLeft : (s.drew k).framesLeft = s.framesLeft := rfl
@[simp] theorem State.drew_wrap : (s.drew k).wrap = s.wrap := rfl
@[simp] theorem State.drew_cmdPort : (s.drew k).cmdPort = s.cmdPort := rfl
@[simp] theorem State.drew_sampleIn : (s.drew k).sampleIn = s.sampleIn := rfl
@[simp] theorem State.drew_sampleOut : (s.drew k).sampleOut = s.sampleOut := rfl
@[simp] theorem State.drew_outTaken : (s.drew k).outTaken = s.outTaken := rfl
@[simp] theorem State.drew_readback : (s.drew k).readback = s.readback := rfl
@[simp] theorem State.drew_nanDraws : (s.drew k).nanDraws = s.nanDraws + k := rfl
end

/-! ## respond -/

section
variable (s : State) (w : Word)
@[simp] theorem State.respond_cfg : (s.respond w).cfg = s.cfg := rfl
@[simp] theorem State.respond_table : (s.respond w).table = s.table := rfl
@[simp] theorem State.respond_mode : (s.respond w).mode = s.mode := rfl
@[simp] theorem State.respond_faultCause : (s.respond w).faultCause = s.faultCause := rfl
@[simp] theorem State.respond_phase : (s.respond w).phase = s.phase := rfl
@[simp] theorem State.respond_rate : (s.respond w).rate = s.rate := rfl
@[simp] theorem State.respond_tableIndex : (s.respond w).tableIndex = s.tableIndex := rfl
@[simp] theorem State.respond_d1 : (s.respond w).d1 = s.d1 := rfl
@[simp] theorem State.respond_d2 : (s.respond w).d2 = s.d2 := rfl
@[simp] theorem State.respond_q : (s.respond w).q = s.q := rfl
@[simp] theorem State.respond_f : (s.respond w).f = s.f := rfl
@[simp] theorem State.respond_h : (s.respond w).h = s.h := rfl
@[simp] theorem State.respond_b : (s.respond w).b = s.b := rfl
@[simp] theorem State.respond_l : (s.respond w).l = s.l := rfl
@[simp] theorem State.respond_n : (s.respond w).n = s.n := rfl
@[simp] theorem State.respond_f1 : (s.respond w).f1 = s.f1 := rfl
@[simp] theorem State.respond_depthKnob : (s.respond w).depthKnob = s.depthKnob := rfl
@[simp] theorem State.respond_timeKnob : (s.respond w).timeKnob = s.timeKnob := rfl
@[simp] theorem State.respond_effectDepth : (s.respond w).effectDepth = s.effectDepth := rfl
@[simp] theorem State.respond_tkw : (s.respond w).tkw = s.tkw := rfl
@[simp] theorem State.respond_dkw : (s.respond w).dkw = s.dkw := rfl
@[simp] theorem State.respond_framesLeft : (s.respond w).framesLeft = s.framesLeft := rfl
@[simp] theorem State.respond_wrap : (s.respond w).wrap = s.wrap := rfl
@[simp] theorem State.respond_cmdPort : (s.respond w).cmdPort = s.cmdPort := rfl
@[simp] theorem State.respond_sampleIn : (s.respond w).sampleIn = s.sampleIn := rfl
@[simp] theorem State.respond_sampleOut : (s.respond w).sampleOut = s.sampleOut := rfl
@[simp] theorem State.respond_outTaken : (s.respond w).outTaken = s.outTaken := rfl
@[simp] theorem State.respond_readback : (s.respond w).readback = s.readback ++ [w] := rfl
@[simp] theorem State.respond_nanDraws : (s.respond w).nanDraws = s.nanDraws := rfl
end

/-! ## streamOut -/

section
variable (s : State) (ws : List Word)
@[simp] theorem State.streamOut_cfg : (s.streamOut ws).cfg = s.cfg := rfl
@[simp] theorem State.streamOut_table : (s.streamOut ws).table = s.table := rfl
@[simp] theorem State.streamOut_mode : (s.streamOut ws).mode = s.mode := rfl
@[simp] theorem State.streamOut_faultCause : (s.streamOut ws).faultCause = s.faultCause := rfl
@[simp] theorem State.streamOut_phase : (s.streamOut ws).phase = s.phase := rfl
@[simp] theorem State.streamOut_rate : (s.streamOut ws).rate = s.rate := rfl
@[simp] theorem State.streamOut_tableIndex : (s.streamOut ws).tableIndex = s.tableIndex := rfl
@[simp] theorem State.streamOut_d1 : (s.streamOut ws).d1 = s.d1 := rfl
@[simp] theorem State.streamOut_d2 : (s.streamOut ws).d2 = s.d2 := rfl
@[simp] theorem State.streamOut_q : (s.streamOut ws).q = s.q := rfl
@[simp] theorem State.streamOut_f : (s.streamOut ws).f = s.f := rfl
@[simp] theorem State.streamOut_h : (s.streamOut ws).h = s.h := rfl
@[simp] theorem State.streamOut_b : (s.streamOut ws).b = s.b := rfl
@[simp] theorem State.streamOut_l : (s.streamOut ws).l = s.l := rfl
@[simp] theorem State.streamOut_n : (s.streamOut ws).n = s.n := rfl
@[simp] theorem State.streamOut_f1 : (s.streamOut ws).f1 = s.f1 := rfl
@[simp] theorem State.streamOut_depthKnob : (s.streamOut ws).depthKnob = s.depthKnob := rfl
@[simp] theorem State.streamOut_timeKnob : (s.streamOut ws).timeKnob = s.timeKnob := rfl
@[simp] theorem State.streamOut_effectDepth : (s.streamOut ws).effectDepth = s.effectDepth := rfl
@[simp] theorem State.streamOut_tkw : (s.streamOut ws).tkw = s.tkw := rfl
@[simp] theorem State.streamOut_dkw : (s.streamOut ws).dkw = s.dkw := rfl
@[simp] theorem State.streamOut_framesLeft : (s.streamOut ws).framesLeft = s.framesLeft := rfl
@[simp] theorem State.streamOut_wrap : (s.streamOut ws).wrap = s.wrap := rfl
@[simp] theorem State.streamOut_cmdPort : (s.streamOut ws).cmdPort = s.cmdPort := rfl
@[simp] theorem State.streamOut_sampleIn : (s.streamOut ws).sampleIn = s.sampleIn := rfl
@[simp] theorem State.streamOut_sampleOut : (s.streamOut ws).sampleOut = s.sampleOut ++ ws := rfl
@[simp] theorem State.streamOut_outTaken : (s.streamOut ws).outTaken = s.outTaken := rfl
@[simp] theorem State.streamOut_readback : (s.streamOut ws).readback = s.readback := rfl
@[simp] theorem State.streamOut_nanDraws : (s.streamOut ws).nanDraws = s.nanDraws := rfl
end

/-! ## raiseFault -/

section
variable (s : State) (c : FaultCause)
@[simp] theorem State.raiseFault_cfg : (s.raiseFault c).cfg = s.cfg := rfl
@[simp] theorem State.raiseFault_table : (s.raiseFault c).table = s.table := rfl
@[simp] theorem State.raiseFault_mode : (s.raiseFault c).mode = .halted := rfl
@[simp] theorem State.raiseFault_faultCause : (s.raiseFault c).faultCause = c := rfl
@[simp] theorem State.raiseFault_phase : (s.raiseFault c).phase = s.phase := rfl
@[simp] theorem State.raiseFault_rate : (s.raiseFault c).rate = s.rate := rfl
@[simp] theorem State.raiseFault_tableIndex : (s.raiseFault c).tableIndex = s.tableIndex := rfl
@[simp] theorem State.raiseFault_d1 : (s.raiseFault c).d1 = s.d1 := rfl
@[simp] theorem State.raiseFault_d2 : (s.raiseFault c).d2 = s.d2 := rfl
@[simp] theorem State.raiseFault_q : (s.raiseFault c).q = s.q := rfl
@[simp] theorem State.raiseFault_f : (s.raiseFault c).f = s.f := rfl
@[simp] theorem State.raiseFault_h : (s.raiseFault c).h = s.h := rfl
@[simp] theorem State.raiseFault_b : (s.raiseFault c).b = s.b := rfl
@[simp] theorem State.raiseFault_l : (s.raiseFault c).l = s.l := rfl
@[simp] theorem State.raiseFault_n : (s.raiseFault c).n = s.n := rfl
@[simp] theorem State.raiseFault_f1 : (s.raiseFault c).f1 = s.f1 := rfl
@[simp] theorem State.raiseFault_depthKnob : (s.raiseFault c).depthKnob = s.depthKnob := rfl
@[simp] theorem State.raiseFault_timeKnob : (s.raiseFault c).timeKnob = s.timeKnob := rfl
@[simp] theorem State.raiseFault_effectDepth : (s.raiseFault c).effectDepth = s.effectDepth := rfl
@[simp] theorem State.raiseFault_tkw : (s.raiseFault c).tkw = s.tkw := rfl
@[simp] theorem State.raiseFault_dkw : (s.raiseFault c).dkw = s.dkw := rfl
@[simp] theorem State.raiseFault_framesLeft : (s.raiseFault c).framesLeft = s.framesLeft := rfl
@[simp] theorem State.raiseFault_wrap : (s.raiseFault c).wrap = s.wrap := rfl
@[simp] theorem State.raiseFault_cmdPort : (s.raiseFault c).cmdPort = s.cmdPort := rfl
@[simp] theorem State.raiseFault_sampleIn : (s.raiseFault c).sampleIn = s.sampleIn := rfl
@[simp] theorem State.raiseFault_sampleOut : (s.raiseFault c).sampleOut = s.sampleOut := rfl
@[simp] theorem State.raiseFault_outTaken : (s.raiseFault c).outTaken = s.outTaken := rfl
@[simp] theorem State.raiseFault_readback : (s.raiseFault c).readback = s.readback := rfl
@[simp] theorem State.raiseFault_nanDraws : (s.raiseFault c).nanDraws = s.nanDraws := rfl
end

/-! ## took -/

section
variable (s : State) (rest : List Word)
@[simp] theorem State.took_cfg : (s.took rest).cfg = s.cfg := rfl
@[simp] theorem State.took_table : (s.took rest).table = s.table := rfl
@[simp] theorem State.took_mode : (s.took rest).mode = s.mode := rfl
@[simp] theorem State.took_faultCause : (s.took rest).faultCause = s.faultCause := rfl
@[simp] theorem State.took_phase : (s.took rest).phase = s.phase := rfl
@[simp] theorem State.took_rate : (s.took rest).rate = s.rate := rfl
@[simp] theorem State.took_tableIndex : (s.took rest).tableIndex = s.tableIndex := rfl
@[simp] theorem State.took_d1 : (s.took rest).d1 = s.d1 := rfl
@[simp] theorem State.took_d2 : (s.took rest).d2 = s.d2 := rfl
@[simp] theorem State.took_q : (s.took rest).q = s.q := rfl
@[simp] theorem State.took_f : (s.took rest).f = s.f := rfl
@[simp] theorem State.took_h : (s.took rest).h = s.h := rfl
@[simp] theorem State.took_b : (s.took rest).b = s.b := rfl
@[simp] theorem State.took_l : (s.took rest).l = s.l := rfl
@[simp] theorem State.took_n : (s.took rest).n = s.n := rfl
@[simp] theorem State.took_f1 : (s.took rest).f1 = s.f1 := rfl
@[simp] theorem State.took_depthKnob : (s.took rest).depthKnob = s.depthKnob := rfl
@[simp] theorem State.took_timeKnob : (s.took rest).timeKnob = s.timeKnob := rfl
@[simp] theorem State.took_effectDepth : (s.took rest).effectDepth = s.effectDepth := rfl
@[simp] theorem State.took_tkw : (s.took rest).tkw = s.tkw := rfl
@[simp] theorem State.took_dkw : (s.took rest).dkw = s.dkw := rfl
@[simp] theorem State.took_framesLeft : (s.took rest).framesLeft = s.framesLeft := rfl
@[simp] theorem State.took_wrap : (s.took rest).wrap = s.wrap := rfl
@[simp] theorem State.took_cmdPort : (s.took rest).cmdPort = rest := rfl
@[simp] theorem State.took_sampleIn : (s.took rest).sampleIn = s.sampleIn := rfl
@[simp] theorem State.took_sampleOut : (s.took rest).sampleOut = s.sampleOut := rfl
@[simp] theorem State.took_outTaken : (s.took rest).outTaken = s.outTaken := rfl
@[simp] theorem State.took_readback : (s.took rest).readback = s.readback := rfl
@[simp] theorem State.took_nanDraws : (s.took rest).nanDraws = s.nanDraws := rfl
end

/-! ## withCommand -/

section
variable (s : State) (ws : List Word)
@[simp] theorem State.withCommand_cfg : (s.withCommand ws).cfg = s.cfg := rfl
@[simp] theorem State.withCommand_table : (s.withCommand ws).table = s.table := rfl
@[simp] theorem State.withCommand_mode : (s.withCommand ws).mode = s.mode := rfl
@[simp] theorem State.withCommand_faultCause : (s.withCommand ws).faultCause = s.faultCause := rfl
@[simp] theorem State.withCommand_phase : (s.withCommand ws).phase = s.phase := rfl
@[simp] theorem State.withCommand_rate : (s.withCommand ws).rate = s.rate := rfl
@[simp] theorem State.withCommand_tableIndex : (s.withCommand ws).tableIndex = s.tableIndex := rfl
@[simp] theorem State.withCommand_d1 : (s.withCommand ws).d1 = s.d1 := rfl
@[simp] theorem State.withCommand_d2 : (s.withCommand ws).d2 = s.d2 := rfl
@[simp] theorem State.withCommand_q : (s.withCommand ws).q = s.q := rfl
@[simp] theorem State.withCommand_f : (s.withCommand ws).f = s.f := rfl
@[simp] theorem State.withCommand_h : (s.withCommand ws).h = s.h := rfl
@[simp] theorem State.withCommand_b : (s.withCommand ws).b = s.b := rfl
@[simp] theorem State.withCommand_l : (s.withCommand ws).l = s.l := rfl
@[simp] theorem State.withCommand_n : (s.withCommand ws).n = s.n := rfl
@[simp] theorem State.withCommand_f1 : (s.withCommand ws).f1 = s.f1 := rfl
@[simp] theorem State.withCommand_depthKnob : (s.withCommand ws).depthKnob = s.depthKnob := rfl
@[simp] theorem State.withCommand_timeKnob : (s.withCommand ws).timeKnob = s.timeKnob := rfl
@[simp] theorem State.withCommand_effectDepth : (s.withCommand ws).effectDepth = s.effectDepth := rfl
@[simp] theorem State.withCommand_tkw : (s.withCommand ws).tkw = s.tkw := rfl
@[simp] theorem State.withCommand_dkw : (s.withCommand ws).dkw = s.dkw := rfl
@[simp] theorem State.withCommand_framesLeft : (s.withCommand ws).framesLeft = 0 := rfl
@[simp] theorem State.withCommand_wrap : (s.withCommand ws).wrap = s.wrap := rfl
@[simp] theorem State.withCommand_cmdPort : (s.withCommand ws).cmdPort = ws ++ s.cmdPort := rfl
@[simp] theorem State.withCommand_sampleIn : (s.withCommand ws).sampleIn = s.sampleIn := rfl
@[simp] theorem State.withCommand_sampleOut : (s.withCommand ws).sampleOut = s.sampleOut := rfl
@[simp] theorem State.withCommand_outTaken : (s.withCommand ws).outTaken = max s.outTaken s.sampleOut.length := rfl
@[simp] theorem State.withCommand_readback : (s.withCommand ws).readback = s.readback := rfl
@[simp] theorem State.withCommand_nanDraws : (s.withCommand ws).nanDraws = s.nanDraws := rfl
end

/-! ## sendCommands -/

section
variable (s : State) (ws : List Word)
@[simp] theorem State.sendCommands_cfg : (s.sendCommands ws).cfg = s.cfg := rfl
@[simp] theorem State.sendCommands_table : (s.sendCommands ws).table = s.table := rfl
@[simp] theorem State.sendCommands_mode : (s.sendCommands ws).mode = s.mode := rfl
@[simp] theorem State.sendCommands_faultCause : (s.sendCommands ws).faultCause = s.faultCause := rfl
@[simp] theorem State.sendCommands_phase : (s.sendCommands ws).phase = s.phase := rfl
@[simp] theorem State.sendCommands_rate : (s.sendCommands ws).rate = s.rate := rfl
@[simp] theorem State.sendCommands_tableIndex : (s.sendCommands ws).tableIndex = s.tableIndex := rfl
@[simp] theorem State.sendCommands_d1 : (s.sendCommands ws).d1 = s.d1 := rfl
@[simp] theorem State.sendCommands_d2 : (s.sendCommands ws).d2 = s.d2 := rfl
@[simp] theorem State.sendCommands_q : (s.sendCommands ws).q = s.q := rfl
@[simp] theorem State.sendCommands_f : (s.sendCommands ws).f = s.f := rfl
@[simp] theorem State.sendCommands_h : (s.sendCommands ws).h = s.h := rfl
@[simp] theorem State.sendCommands_b : (s.sendCommands ws).b = s.b := rfl
@[simp] theorem State.sendCommands_l : (s.sendCommands ws).l = s.l := rfl
@[simp] theorem State.sendCommands_n : (s.sendCommands ws).n = s.n := rfl
@[simp] theorem State.sendCommands_f1 : (s.sendCommands ws).f1 = s.f1 := rfl
@[simp] theorem State.sendCommands_depthKnob : (s.sendCommands ws).depthKnob = s.depthKnob := rfl
@[simp] theorem State.sendCommands_timeKnob : (s.sendCommands ws).timeKnob = s.timeKnob := rfl
@[simp] theorem State.sendCommands_effectDepth : (s.sendCommands ws).effectDepth = s.effectDepth := rfl
@[simp] theorem State.sendCommands_tkw : (s.sendCommands ws).tkw = s.tkw := rfl
@[simp] theorem State.sendCommands_dkw : (s.sendCommands ws).dkw = s.dkw := rfl
@[simp] theorem State.sendCommands_framesLeft : (s.sendCommands ws).framesLeft = s.framesLeft := rfl
@[simp] theorem State.sendCommands_wrap : (s.sendCommands ws).wrap = s.wrap := rfl
@[simp] theorem State.sendCommands_cmdPort : (s.sendCommands ws).cmdPort = s.cmdPort ++ ws := rfl
@[simp] theorem State.sendCommands_sampleIn : (s.sendCommands ws).sampleIn = s.sampleIn := rfl
@[simp] theorem State.sendCommands_sampleOut : (s.sendCommands ws).sampleOut = s.sampleOut := rfl
@[simp] theorem State.sendCommands_outTaken : (s.sendCommands ws).outTaken = s.outTaken := rfl
@[simp] theorem State.sendCommands_readback : (s.sendCommands ws).readback = s.readback := rfl
@[simp] theorem State.sendCommands_nanDraws : (s.sendCommands ws).nanDraws = s.nanDraws := rfl
end

/-! ## supplySamples -/

section
variable (s : State) (ws : List Word)
@[simp] theorem State.supplySamples_cfg : (s.supplySamples ws).cfg = s.cfg := rfl
@[simp] theorem State.supplySamples_table : (s.supplySamples ws).table = s.table := rfl
@[simp] theorem State.supplySamples_mode : (s.supplySamples ws).mode = s.mode := rfl
@[simp] theorem State.supplySamples_faultCause : (s.supplySamples ws).faultCause = s.faultCause := rfl
@[simp] theorem State.supplySamples_phase : (s.supplySamples ws).phase = s.phase := rfl
@[simp] theorem State.supplySamples_rate : (s.supplySamples ws).rate = s.rate := rfl
@[simp] theorem State.supplySamples_tableIndex : (s.supplySamples ws).tableIndex = s.tableIndex := rfl
@[simp] theorem State.supplySamples_d1 : (s.supplySamples ws).d1 = s.d1 := rfl
@[simp] theorem State.supplySamples_d2 : (s.supplySamples ws).d2 = s.d2 := rfl
@[simp] theorem State.supplySamples_q : (s.supplySamples ws).q = s.q := rfl
@[simp] theorem State.supplySamples_f : (s.supplySamples ws).f = s.f := rfl
@[simp] theorem State.supplySamples_h : (s.supplySamples ws).h = s.h := rfl
@[simp] theorem State.supplySamples_b : (s.supplySamples ws).b = s.b := rfl
@[simp] theorem State.supplySamples_l : (s.supplySamples ws).l = s.l := rfl
@[simp] theorem State.supplySamples_n : (s.supplySamples ws).n = s.n := rfl
@[simp] theorem State.supplySamples_f1 : (s.supplySamples ws).f1 = s.f1 := rfl
@[simp] theorem State.supplySamples_depthKnob : (s.supplySamples ws).depthKnob = s.depthKnob := rfl
@[simp] theorem State.supplySamples_timeKnob : (s.supplySamples ws).timeKnob = s.timeKnob := rfl
@[simp] theorem State.supplySamples_effectDepth : (s.supplySamples ws).effectDepth = s.effectDepth := rfl
@[simp] theorem State.supplySamples_tkw : (s.supplySamples ws).tkw = s.tkw := rfl
@[simp] theorem State.supplySamples_dkw : (s.supplySamples ws).dkw = s.dkw := rfl
@[simp] theorem State.supplySamples_framesLeft : (s.supplySamples ws).framesLeft = s.framesLeft := rfl
@[simp] theorem State.supplySamples_wrap : (s.supplySamples ws).wrap = s.wrap := rfl
@[simp] theorem State.supplySamples_cmdPort : (s.supplySamples ws).cmdPort = s.cmdPort := rfl
@[simp] theorem State.supplySamples_sampleIn : (s.supplySamples ws).sampleIn = s.sampleIn ++ ws := rfl
@[simp] theorem State.supplySamples_sampleOut : (s.supplySamples ws).sampleOut = s.sampleOut := rfl
@[simp] theorem State.supplySamples_outTaken : (s.supplySamples ws).outTaken = s.outTaken := rfl
@[simp] theorem State.supplySamples_readback : (s.supplySamples ws).readback = s.readback := rfl
@[simp] theorem State.supplySamples_nanDraws : (s.supplySamples ws).nanDraws = s.nanDraws := rfl
end

/-! ## acceptSamples -/

section
variable (s : State) (k : Nat)
@[simp] theorem State.acceptSamples_cfg : (s.acceptSamples k).cfg = s.cfg := rfl
@[simp] theorem State.acceptSamples_table : (s.acceptSamples k).table = s.table := rfl
@[simp] theorem State.acceptSamples_mode : (s.acceptSamples k).mode = s.mode := rfl
@[simp] theorem State.acceptSamples_faultCause : (s.acceptSamples k).faultCause = s.faultCause := rfl
@[simp] theorem State.acceptSamples_phase : (s.acceptSamples k).phase = s.phase := rfl
@[simp] theorem State.acceptSamples_rate : (s.acceptSamples k).rate = s.rate := rfl
@[simp] theorem State.acceptSamples_tableIndex : (s.acceptSamples k).tableIndex = s.tableIndex := rfl
@[simp] theorem State.acceptSamples_d1 : (s.acceptSamples k).d1 = s.d1 := rfl
@[simp] theorem State.acceptSamples_d2 : (s.acceptSamples k).d2 = s.d2 := rfl
@[simp] theorem State.acceptSamples_q : (s.acceptSamples k).q = s.q := rfl
@[simp] theorem State.acceptSamples_f : (s.acceptSamples k).f = s.f := rfl
@[simp] theorem State.acceptSamples_h : (s.acceptSamples k).h = s.h := rfl
@[simp] theorem State.acceptSamples_b : (s.acceptSamples k).b = s.b := rfl
@[simp] theorem State.acceptSamples_l : (s.acceptSamples k).l = s.l := rfl
@[simp] theorem State.acceptSamples_n : (s.acceptSamples k).n = s.n := rfl
@[simp] theorem State.acceptSamples_f1 : (s.acceptSamples k).f1 = s.f1 := rfl
@[simp] theorem State.acceptSamples_depthKnob : (s.acceptSamples k).depthKnob = s.depthKnob := rfl
@[simp] theorem State.acceptSamples_timeKnob : (s.acceptSamples k).timeKnob = s.timeKnob := rfl
@[simp] theorem State.acceptSamples_effectDepth : (s.acceptSamples k).effectDepth = s.effectDepth := rfl
@[simp] theorem State.acceptSamples_tkw : (s.acceptSamples k).tkw = s.tkw := rfl
@[simp] theorem State.acceptSamples_dkw : (s.acceptSamples k).dkw = s.dkw := rfl
@[simp] theorem State.acceptSamples_framesLeft : (s.acceptSamples k).framesLeft = s.framesLeft := rfl
@[simp] theorem State.acceptSamples_wrap : (s.acceptSamples k).wrap = s.wrap := rfl
@[simp] theorem State.acceptSamples_cmdPort : (s.acceptSamples k).cmdPort = s.cmdPort := rfl
@[simp] theorem State.acceptSamples_sampleIn : (s.acceptSamples k).sampleIn = s.sampleIn := rfl
@[simp] theorem State.acceptSamples_sampleOut : (s.acceptSamples k).sampleOut = s.sampleOut := rfl
@[simp] theorem State.acceptSamples_outTaken : (s.acceptSamples k).outTaken = s.outTaken + k := rfl
@[simp] theorem State.acceptSamples_readback : (s.acceptSamples k).readback = s.readback := rfl
@[simp] theorem State.acceptSamples_nanDraws : (s.acceptSamples k).nanDraws = s.nanDraws := rfl
end

/-! ## takeSamples -/

section
variable (s : State) (k : Nat)
@[simp] theorem State.takeSamples_cfg : ((s.takeSamples k).2).cfg = s.cfg := rfl
@[simp] theorem State.takeSamples_table : ((s.takeSamples k).2).table = s.table := rfl
@[simp] theorem State.takeSamples_mode : ((s.takeSamples k).2).mode = s.mode := rfl
@[simp] theorem State.takeSamples_faultCause : ((s.takeSamples k).2).faultCause = s.faultCause := rfl
@[simp] theorem State.takeSamples_phase : ((s.takeSamples k).2).phase = s.phase := rfl
@[simp] theorem State.takeSamples_rate : ((s.takeSamples k).2).rate = s.rate := rfl
@[simp] theorem State.takeSamples_tableIndex : ((s.takeSamples k).2).tableIndex = s.tableIndex := rfl
@[simp] theorem State.takeSamples_d1 : ((s.takeSamples k).2).d1 = s.d1 := rfl
@[simp] theorem State.takeSamples_d2 : ((s.takeSamples k).2).d2 = s.d2 := rfl
@[simp] theorem State.takeSamples_q : ((s.takeSamples k).2).q = s.q := rfl
@[simp] theorem State.takeSamples_f : ((s.takeSamples k).2).f = s.f := rfl
@[simp] theorem State.takeSamples_h : ((s.takeSamples k).2).h = s.h := rfl
@[simp] theorem State.takeSamples_b : ((s.takeSamples k).2).b = s.b := rfl
@[simp] theorem State.takeSamples_l : ((s.takeSamples k).2).l = s.l := rfl
@[simp] theorem State.takeSamples_n : ((s.takeSamples k).2).n = s.n := rfl
@[simp] theorem State.takeSamples_f1 : ((s.takeSamples k).2).f1 = s.f1 := rfl
@[simp] theorem State.takeSamples_depthKnob : ((s.takeSamples k).2).depthKnob = s.depthKnob := rfl
@[simp] theorem State.takeSamples_timeKnob : ((s.takeSamples k).2).timeKnob = s.timeKnob := rfl
@[simp] theorem State.takeSamples_effectDepth : ((s.takeSamples k).2).effectDepth = s.effectDepth := rfl
@[simp] theorem State.takeSamples_tkw : ((s.takeSamples k).2).tkw = s.tkw := rfl
@[simp] theorem State.takeSamples_dkw : ((s.takeSamples k).2).dkw = s.dkw := rfl
@[simp] theorem State.takeSamples_framesLeft : ((s.takeSamples k).2).framesLeft = s.framesLeft := rfl
@[simp] theorem State.takeSamples_wrap : ((s.takeSamples k).2).wrap = s.wrap := rfl
@[simp] theorem State.takeSamples_cmdPort : ((s.takeSamples k).2).cmdPort = s.cmdPort := rfl
@[simp] theorem State.takeSamples_sampleIn : ((s.takeSamples k).2).sampleIn = s.sampleIn := rfl
@[simp] theorem State.takeSamples_sampleOut : ((s.takeSamples k).2).sampleOut = s.sampleOut.drop k := rfl
@[simp] theorem State.takeSamples_outTaken : ((s.takeSamples k).2).outTaken = s.outTaken - min k s.sampleOut.length := rfl
@[simp] theorem State.takeSamples_readback : ((s.takeSamples k).2).readback = s.readback := rfl
@[simp] theorem State.takeSamples_nanDraws : ((s.takeSamples k).2).nanDraws = s.nanDraws := rfl
end

/-! ## What each internal operation writes -/

theorem State.initialise_writes (s : State) : s.initialise =
    { s with
      phase := F32.zero, tableIndex := 0, rate := s.cfg.initLfoRate, f := s.cfg.initFrequency,
      effectDepth := s.cfg.initDeviation, d1 := F32.zero, d2 := F32.zero, q := s.cfg.qConst, h := F32.zero,
      b := F32.zero, l := F32.zero, n := F32.zero, f1 := F32.zero, timeKnob := none, depthKnob := none,
      tkw := false, dkw := false, mode := .ready } := rfl

theorem State.setTime_writes (s : State) (raw : Word) : s.setTime raw =
    { s with
      timeKnob := some (rawToUnit (s.nan 0) raw), tkw := true,
      rate := F32.mul (s.nan 1) s.cfg.maxLfoRate (rawToUnit (s.nan 0) raw), nanDraws := s.nanDraws + 2 } := rfl

theorem State.setDepth_writes (s : State) (raw : Word) : s.setDepth raw =
    { s with
      depthKnob := some (rawToUnit (s.nan 0) raw), dkw := true,
      effectDepth := F32.mul (s.nan 1) (rawToUnit (s.nan 0) raw) s.cfg.maxFrequencyDeviation,
      nanDraws := s.nanDraws + 2 } := rfl

theorem State.oscAdvance_writes (s : State) : s.oscAdvance =
    { s with phase := s.oscAdvance.phase, nanDraws := s.nanDraws + 2 } := rfl

theorem State.wrapTest_writes (s : State) : s.wrapTest =
    { s with phase := s.wrapTest.phase, wrap := F32.ge s.phase F32.one, nanDraws := s.nanDraws + 1 } := rfl

theorem State.wrapDraw_writes (s : State) : s.wrapDraw =
    { s with f := s.wrapDraw.f, nanDraws := s.wrapDraw.nanDraws } := by
  unfold State.wrapDraw
  split <;> rfl

theorem State.indexStep_writes (s : State) : s.indexStep = { s with tableIndex := s.indexStep.tableIndex } := by
  unfold State.indexStep
  split <;> rfl

theorem State.oscillate_writes (s : State) : s.oscillate =
    { s with
      phase := s.oscillate.phase, tableIndex := s.oscillate.tableIndex, f := s.oscillate.f,
      wrap := s.oscillate.wrap, nanDraws := s.oscillate.nanDraws } := by
  unfold State.oscillate
  rw [State.indexStep_writes, State.wrapDraw_writes, State.wrapTest_writes, State.oscAdvance_writes]

theorem State.coefDerive_writes (s : State) : s.coefDerive =
    { s with f1 := s.coefDerive.f1, nanDraws := s.nanDraws + 2 } := rfl

theorem State.svfStep_writes (s : State) (x : Word) : s.svfStep x =
    { s with
      l := (s.svfStep x).l, h := (s.svfStep x).h, b := (s.svfStep x).b, n := (s.svfStep x).n,
      d1 := (s.svfStep x).b, d2 := (s.svfStep x).l, nanDraws := s.nanDraws + 8 } := rfl

/-- What the registers of a frame may change: the oscillator's phase, index and F, the coefficient, the taps and the
delays. -/
theorem State.frameRegisters_writes (s : State) (x : Word) : s.frameRegisters x =
    { s with
      phase := (s.frameRegisters x).phase, tableIndex := (s.frameRegisters x).tableIndex,
      f := (s.frameRegisters x).f, f1 := (s.frameRegisters x).f1, l := (s.frameRegisters x).l,
      h := (s.frameRegisters x).h, b := (s.frameRegisters x).b, n := (s.frameRegisters x).n,
      d1 := (s.frameRegisters x).d1, d2 := (s.frameRegisters x).d2, wrap := false,
      nanDraws := (s.frameRegisters x).nanDraws } := by
  unfold State.frameRegisters
  rw [State.svfStep_writes, State.coefDerive_writes, State.oscillate_writes]

/-! ## One frame of a PROCESS -/

section
variable (s : State) (mL mR sL sR : Word) (rest : List Word)

@[simp] theorem State.runFrame_cfg : (s.runFrame mL mR sL sR rest).cfg = s.cfg := by
  simp only [State.runFrame, State.frameStep, State.streamOut]
  rw [State.frameRegisters_writes]
@[simp] theorem State.runFrame_table : (s.runFrame mL mR sL sR rest).table = s.table := by
  simp only [State.runFrame, State.frameStep, State.streamOut]
  rw [State.frameRegisters_writes]
@[simp] theorem State.runFrame_mode : (s.runFrame mL mR sL sR rest).mode = s.mode := by
  simp only [State.runFrame, State.frameStep, State.streamOut]
  rw [State.frameRegisters_writes]
@[simp] theorem State.runFrame_faultCause : (s.runFrame mL mR sL sR rest).faultCause = s.faultCause := by
  simp only [State.runFrame, State.frameStep, State.streamOut]
  rw [State.frameRegisters_writes]
@[simp] theorem State.runFrame_rate : (s.runFrame mL mR sL sR rest).rate = s.rate := by
  simp only [State.runFrame, State.frameStep, State.streamOut]
  rw [State.frameRegisters_writes]
@[simp] theorem State.runFrame_q : (s.runFrame mL mR sL sR rest).q = s.q := by
  simp only [State.runFrame, State.frameStep, State.streamOut]
  rw [State.frameRegisters_writes]
@[simp] theorem State.runFrame_depthKnob : (s.runFrame mL mR sL sR rest).depthKnob = s.depthKnob := by
  simp only [State.runFrame, State.frameStep, State.streamOut]
  rw [State.frameRegisters_writes]
@[simp] theorem State.runFrame_timeKnob : (s.runFrame mL mR sL sR rest).timeKnob = s.timeKnob := by
  simp only [State.runFrame, State.frameStep, State.streamOut]
  rw [State.frameRegisters_writes]
@[simp] theorem State.runFrame_effectDepth : (s.runFrame mL mR sL sR rest).effectDepth = s.effectDepth := by
  simp only [State.runFrame, State.frameStep, State.streamOut]
  rw [State.frameRegisters_writes]
@[simp] theorem State.runFrame_tkw : (s.runFrame mL mR sL sR rest).tkw = s.tkw := by
  simp only [State.runFrame, State.frameStep, State.streamOut]
  rw [State.frameRegisters_writes]
@[simp] theorem State.runFrame_dkw : (s.runFrame mL mR sL sR rest).dkw = s.dkw := by
  simp only [State.runFrame, State.frameStep, State.streamOut]
  rw [State.frameRegisters_writes]
@[simp] theorem State.runFrame_cmdPort : (s.runFrame mL mR sL sR rest).cmdPort = s.cmdPort := by
  simp only [State.runFrame, State.frameStep, State.streamOut]
  rw [State.frameRegisters_writes]
@[simp] theorem State.runFrame_readback : (s.runFrame mL mR sL sR rest).readback = s.readback := by
  simp only [State.runFrame, State.frameStep, State.streamOut]
  rw [State.frameRegisters_writes]
@[simp] theorem State.runFrame_outTaken : (s.runFrame mL mR sL sR rest).outTaken = s.outTaken := by
  simp only [State.runFrame, State.frameStep, State.streamOut]
  rw [State.frameRegisters_writes]
@[simp] theorem State.runFrame_wrap : (s.runFrame mL mR sL sR rest).wrap = false := rfl
@[simp] theorem State.runFrame_framesLeft : (s.runFrame mL mR sL sR rest).framesLeft = s.framesLeft - 1 := by
  simp only [State.runFrame, State.frameStep, State.streamOut]
  rw [State.frameRegisters_writes]
@[simp] theorem State.runFrame_sampleIn : (s.runFrame mL mR sL sR rest).sampleIn = rest := by
  simp only [State.runFrame, State.frameStep, State.streamOut]
  rw [State.frameRegisters_writes]
@[simp] theorem State.runFrame_sampleOut : (s.runFrame mL mR sL sR rest).sampleOut =
    s.sampleOut ++ [(s.runFrame mL mR sL sR rest).l, (s.runFrame mL mR sL sR rest).l, sL, sR] := by
  simp only [State.runFrame, State.frameStep, State.streamOut]
  rw [State.frameRegisters_writes]
end

end Sys2Proof.Machine
end

