-- ==== Sys2Proof/Laws/Step.lean ====
section
/-! SUPPORT. What a meaning and a step can do, each said once: the case lemmas that later proofs cite. -/

namespace Sys2Proof.Machine

/-! ## The lifecycle guard -/

theorem State.whenReady_ready {s : State} (h : s.mode = .ready) (run : State) : s.whenReady run = .next run := by
  simp only [State.whenReady, h]

theorem State.whenReady_uninit {s : State} (h : s.mode = .uninit) (run : State) :
    s.whenReady run = .next (s.raiseFault .notInitialized) := by
  simp only [State.whenReady, h]

theorem State.whenReady_halted {s : State} (h : s.mode = .halted) (run : State) : s.whenReady run = .next s := by
  simp only [State.whenReady, h]

/-- The guard discards, faults or runs. -/
theorem State.whenReady_cases {s run t : State} (h : s.whenReady run = .next t) :
    (s.mode = .halted ∧ t = s) ∨ (s.mode = .uninit ∧ t = s.raiseFault .notInitialized) ∨
    (s.mode = .ready ∧ t = run) := by
  unfold State.whenReady at h
  split at h <;> injection h with h <;> subst h
  · exact .inl ⟨by assumption, rfl⟩
  · exact .inr (.inl ⟨by assumption, rfl⟩)
  · exact .inr (.inr ⟨by assumption, rfl⟩)

/-! ## The meanings -/

theorem execInit_cases {p a : Word} {s t : State} (h : execInit p a s = .next t) :
    (s.mode = .halted ∧ t = s) ∨ (s.mode ≠ .halted ∧ t = s.initialise) := by
  unfold execInit at h
  split at h <;> injection h with h <;> subst h
  · exact .inl ⟨by assumption, rfl⟩
  · next hm => exact .inr ⟨by simp [hm], rfl⟩
  · next hm => exact .inr ⟨by simp [hm], rfl⟩

/-- A register read answers one word or raises UNWRITTEN_READ. -/
theorem State.readNamed_cases (s : State) (reg : Reg) :
    (∃ w, s.readRegister reg = some w ∧ s.readNamed reg = s.respond w) ∨
    ((reg = .depthKnob ∨ reg = .timeKnob) ∧ s.readNamed reg = s.raiseFault .unwrittenRead) := by
  by_cases hk : reg = .depthKnob ∨ reg = .timeKnob
  · unfold State.readNamed
    split
    · exact .inr ⟨hk, rfl⟩
    · split
      · exact .inr ⟨hk, rfl⟩
      · cases hr : s.readRegister reg with
        | some w => exact .inl ⟨w, rfl, rfl⟩
        | none => exact .inr ⟨hk, rfl⟩
  · refine .inl ?_
    have h1 : ¬(reg = .depthKnob ∧ s.dkw = false) := fun h => hk (.inl h.1)
    have h2 : ¬(reg = .timeKnob ∧ s.tkw = false) := fun h => hk (.inr h.1)
    simp only [State.readNamed, if_neg h1, if_neg h2]
    cases hr : s.readRegister reg with
    | some w => exact ⟨w, rfl, rfl⟩
    | none => exact absurd hr (by cases reg <;> simp_all [State.readRegister])

/-! ## The frame loop -/

/-- A property that one frame keeps is kept by the whole loop. -/
theorem runFrames_keeps {P : State → Prop}
    (hframe : ∀ s mL mR sL sR rest, s.sampleIn = mL :: mR :: sL :: sR :: rest → P s → P (s.runFrame mL mR sL sR rest)) :
    ∀ (k : Nat) (s : State), P s → P (runFrames k s)
  | 0, _, h => h
  | k + 1, s, h => by
    unfold runFrames
    split
    · next mL mR sL sR rest e => exact runFrames_keeps hframe k _ (hframe s mL mR sL sR rest e h)
    · exact h

/-- A field that one frame leaves as it was is left so by the whole loop. -/
theorem runFrames_field {α : Type} (g : State → α)
    (hframe : ∀ (s : State) (mL mR sL sR : Word) (rest : List Word), g (s.runFrame mL mR sL sR rest) = g s)
    (k : Nat) (s : State) : g (runFrames k s) = g s :=
  runFrames_keeps (P := fun t => g t = g s) (fun t mL mR sL sR rest _ h => (hframe t mL mR sL sR rest).trans h) k s rfl

section
variable (k : Nat) (s : State)
@[simp] theorem runFrames_cfg : (runFrames k s).cfg = s.cfg := runFrames_field (·.cfg) (by simp) k s
@[simp] theorem runFrames_table : (runFrames k s).table = s.table := runFrames_field (·.table) (by simp) k s
@[simp] theorem runFrames_mode : (runFrames k s).mode = s.mode := runFrames_field (·.mode) (by simp) k s
@[simp] theorem runFrames_faultCause : (runFrames k s).faultCause = s.faultCause :=
  runFrames_field (·.faultCause) (by simp) k s
@[simp] theorem runFrames_rate : (runFrames k s).rate = s.rate := runFrames_field (·.rate) (by simp) k s
@[simp] theorem runFrames_q : (runFrames k s).q = s.q := runFrames_field (·.q) (by simp) k s
@[simp] theorem runFrames_depthKnob : (runFrames k s).depthKnob = s.depthKnob :=
  runFrames_field (·.depthKnob) (by simp) k s
@[simp] theorem runFrames_timeKnob : (runFrames k s).timeKnob = s.timeKnob :=
  runFrames_field (·.timeKnob) (by simp) k s
@[simp] theorem runFrames_effectDepth : (runFrames k s).effectDepth = s.effectDepth :=
  runFrames_field (·.effectDepth) (by simp) k s
@[simp] theorem runFrames_tkw : (runFrames k s).tkw = s.tkw := runFrames_field (·.tkw) (by simp) k s
@[simp] theorem runFrames_dkw : (runFrames k s).dkw = s.dkw := runFrames_field (·.dkw) (by simp) k s
@[simp] theorem runFrames_cmdPort : (runFrames k s).cmdPort = s.cmdPort := runFrames_field (·.cmdPort) (by simp) k s
@[simp] theorem runFrames_outTaken : (runFrames k s).outTaken = s.outTaken := runFrames_field (·.outTaken) (by simp) k s
@[simp] theorem runFrames_readback : (runFrames k s).readback = s.readback :=
  runFrames_field (·.readback) (by simp) k s
end

/-! ## What the core takes next -/

theorem State.outputTaken_iff {s : State} : s.outputTaken = true ↔ s.sampleOut.length ≤ s.outTaken := by
  simp only [State.outputTaken, decide_eq_true_eq]

theorem State.activity_resume {s : State} (h : s.framesLeft ≠ 0) : s.activity = .resume := by
  simp only [State.activity, if_pos h]

theorem State.activity_untaken {s : State} (h : s.framesLeft = 0) (ho : s.outputTaken = false) : s.activity = .wait := by
  simp [State.activity, h, ho]

theorem State.activity_halted {s : State} (h : s.framesLeft = 0) (ho : s.outputTaken = true) (hm : s.mode = .halted) :
    s.activity = haltedActivity s.cmdPort := by
  simp [State.activity, h, ho, hm]

theorem State.activity_decodes {s : State} (h : s.framesLeft = 0) (ho : s.outputTaken = true) (hm : s.mode ≠ .halted) :
    s.activity = activityOf (decodeCommand s.cmdPort) := by
  cases hc : s.mode <;> simp_all [State.activity]

/-- The core takes words from the command port only outside a PROCESS. -/
theorem State.activity_cases (s : State) :
    (s.framesLeft ≠ 0 ∧ s.activity = .resume) ∨ (s.framesLeft = 0 ∧ s.outputTaken = false ∧ s.activity = .wait) ∨
    (s.framesLeft = 0 ∧ s.outputTaken = true ∧ s.mode = .halted ∧ s.activity = haltedActivity s.cmdPort) ∨
    (s.framesLeft = 0 ∧ s.outputTaken = true ∧ s.mode ≠ .halted ∧ s.activity = activityOf (decodeCommand s.cmdPort)) := by
  by_cases h : s.framesLeft = 0
  · cases ho : s.outputTaken with
    | false => exact .inr (.inl ⟨h, rfl, State.activity_untaken h ho⟩)
    | true =>
      by_cases hm : s.mode = .halted
      · exact .inr (.inr (.inl ⟨h, rfl, hm, State.activity_halted h ho hm⟩))
      · exact .inr (.inr (.inr ⟨h, rfl, hm, State.activity_decodes h ho hm⟩))
  · exact .inl ⟨h, State.activity_resume h⟩

/-! ## One step -/

/-- Every way a step can end in a next state. -/
theorem step_cases {s t : State} (h : step s = .next t) :
    (s.activity = .resume ∧ t = s.continueProcess) ∨
    (∃ i rest, s.activity = .take i rest ∧ exec i (s.took rest) = .next t) ∨
    (∃ rest, s.activity = .takeIllegal rest ∧ t = (s.took rest).raiseFault .illegalCommand) ∨
    (∃ rest, s.activity = .discard rest ∧ t = s.took rest) ∨
    (s.activity = .wait ∧ t = s) := by
  unfold step at h
  split at h
  · next ha => injection h with h; exact .inl ⟨ha, h.symm⟩
  · next i rest ha => exact .inr (.inl ⟨i, rest, ha, h⟩)
  · next rest ha => injection h with h; exact .inr (.inr (.inl ⟨rest, ha, h.symm⟩))
  · next rest ha => injection h with h; exact .inr (.inr (.inr (.inl ⟨rest, ha, h.symm⟩)))
  · next ha => injection h with h; exact .inr (.inr (.inr (.inr ⟨ha, h.symm⟩)))

end Sys2Proof.Machine
end

