-- ==== Sys2Proof/Machine/Assembler.lean ====
section
/-! DEFINITION. The command syntax of 30_encoding R76 and R77: what a line of a program stands for, and the text form.
Host-side notation only: no state of the core depends on it (assumption log 18). -/

namespace Sys2Proof.Machine

/-- A line of a program (R76, and the pseudo-commands of R77). A real operand is ±`num / den`. -/
inductive AsmLine where
  | init (plat api : Word)
  | setp (pidx : BitVec 8) (raw : Word)
  | proc (frames : Word)
  | rdreg (reg : Reg)
  | frameData (mL mR sL sR : Word)
  | initZero
  | setTime (raw : Word)
  | setDepth (raw : Word)
  | setTimeReal (num den : Nat)
  | setDepthReal (num den : Nat)
  | frameOne
  | nop
  deriving DecidableEq, Repr

/-- `q31(v)` of R77 for `v = num / den`. -/
def q31 (num den : Nat) : Word := BitVec.ofNat 32 (min (F32.divNearestEven (num * 2 ^ 31) den) (2 ^ 31 - 1))

/-- SET_PARAM by its parameter index (30_encoding R64). -/
def setParam (pidx : BitVec 8) (raw : Word) : Instr :=
  if pidx = 0 then .setParamTime raw else if pidx = 1 then .setParamDepth raw else .setParamNone pidx raw

/-- The command a line encodes; `.frame` lines are data, not commands (R76). -/
def AsmLine.command : AsmLine → Option Instr
  | .init plat api => some (.init plat api)
  | .setp pidx raw => some (setParam pidx raw)
  | .proc frames => some (.process frames)
  | .rdreg reg => some (.readReg reg)
  | .frameData _ _ _ _ => none
  | .initZero => some (.init 0 0)
  | .setTime raw => some (setParam 0 raw)
  | .setDepth raw => some (setParam 1 raw)
  | .setTimeReal num den => some (setParam 0 (q31 num den))
  | .setDepthReal num den => some (setParam 1 (q31 num den))
  | .frameOne => some (.process 1)
  | .nop => some (.process 0)

/-- The words a line puts on the command port. -/
def AsmLine.commandWords (a : AsmLine) : List Word :=
  match a.command with
  | some i => encode i
  | none => []

/-- The words a line puts on the sample input stream. -/
def AsmLine.sampleWords : AsmLine → List Word
  | .frameData mL mR sL sR => [mL, mR, sL, sR]
  | _ => []

/-! ## Text -/

/-- A digit's value in a base. -/
def digitValue (base : Nat) (c : Char) : Option Nat :=
  let k := c.toNat
  let v := if 48 ≤ k ∧ k ≤ 57 then k - 48
    else if 97 ≤ k ∧ k ≤ 102 then k - 87
    else if 65 ≤ k ∧ k ≤ 70 then k - 55
    else base
  if v < base then some v else none

/-- A non-empty run of digits, continued from `acc`. -/
def digits (base : Nat) : Nat → List Char → Option Nat
  | acc, [] => some acc
  | acc, c :: cs =>
    match digitValue base c with
    | some v => digits base (acc * base + v) cs
    | none => none

/-- A number: decimal, or `0x` and hexadecimal digits (R76). -/
def number : List Char → Option Nat
  | [] => none
  | '0' :: 'x' :: c :: cs => digits 16 0 (c :: cs)
  | c :: cs => digits 10 0 (c :: cs)

/-- A number that fits a word. -/
def wordOf (cs : List Char) : Option Word :=
  match number cs with
  | some v => if v < 2 ^ 32 then some (BitVec.ofNat 32 v) else none
  | none => none

/-- The text before and after the first point. -/
def splitPoint : List Char → List Char × List Char
  | [] => ([], [])
  | '.' :: cs => ([], cs)
  | c :: cs => let (a, b) := splitPoint cs; (c :: a, b)

/-- A non-negative decimal real as a fraction (R76). -/
def decimal (cs : List Char) : Option (Nat × Nat) :=
  let (a, b) := splitPoint cs
  match a with
  | [] => none
  | _ =>
    match digits 10 0 (a ++ b) with
    | some v => some (v, 10 ^ b.length)
    | none => none

/-- A `.frame` operand (R76): `0x` and eight hex digits as they stand, or a decimal real rounded to nearest even. -/
def sampleOf : List Char → Option Word
  | '0' :: 'x' :: cs => if cs.length = 8 then (digits 16 0 cs).map (BitVec.ofNat 32) else none
  | '-' :: cs => (decimal cs).map fun v => F32.round true (v.1 * F32.unit) v.2
  | cs => (decimal cs).map fun v => F32.round false (v.1 * F32.unit) v.2

/-- The register names of 10_state R38. -/
def Reg.assemblerName : Reg → List Char
  | .status => ['S', 'T', 'A', 'T', 'U', 'S']
  | .phase => ['P', 'H', 'A', 'S', 'E']
  | .rate => ['R', 'A', 'T', 'E']
  | .tableIndex => ['T', 'A', 'B', 'L', 'E', '_', 'I', 'N', 'D', 'E', 'X']
  | .d1 => ['D', '1']
  | .d2 => ['D', '2']
  | .q => ['Q']
  | .f => ['F']
  | .h => ['H']
  | .b => ['B']
  | .l => ['L']
  | .n => ['N']
  | .depthKnob => ['D', 'E', 'P', 'T', 'H', '_', 'K', 'N', 'O', 'B']
  | .timeKnob => ['T', 'I', 'M', 'E', '_', 'K', 'N', 'O', 'B']
  | .effectDepth => ['E', 'F', 'F', 'E', 'C', 'T', '_', 'D', 'E', 'P', 'T', 'H']
  | .f1 => ['F', '1']

/-- Every register, in the order of 10_state R38. -/
def allRegs : List Reg :=
  [.status, .phase, .rate, .tableIndex, .d1, .d2, .q, .f, .h, .b, .l, .n, .depthKnob, .timeKnob, .effectDepth, .f1]

def regOf (cs : List Char) : Option Reg := allRegs.find? fun r => decide (Reg.assemblerName r = cs)

/-- A line's text before `;`, which starts a comment (R76). -/
def stripComment (cs : List Char) : List Char := cs.takeWhile fun c => decide (c ≠ ';')

/-- Cut a text at each character that `sep` marks. -/
def cut (sep : Char → Bool) : List Char → List (List Char)
  | [] => [[]]
  | c :: cs =>
    match cut sep cs with
    | [] => [[c]]
    | t :: ts => if sep c then [] :: t :: ts else (c :: t) :: ts

/-- The words of a line: operands are set apart by commas and spaces. -/
def tokens (cs : List Char) : List (List Char) :=
  (cut (fun c => decide (c = ' ') || decide (c = ',')) (stripComment cs)).filter fun t => !t.isEmpty

/-- A pair of operands, each read by `f` and `g`. -/
def both {α β γ : Type} (k : α → β → γ) (a : Option α) (b : Option β) : Option γ :=
  match a, b with
  | some a, some b => some (k a b)
  | _, _ => none

/-- A parameter index of 0 to 255 (30_encoding R69). -/
def pidxOf (cs : List Char) : Option (BitVec 8) :=
  match number cs with
  | some v => if v < 256 then some (BitVec.ofNat 8 v) else none
  | none => none

/-- A real of [0, 1] for `SETTIME.f` and `SETDEPTH.f` (R77). -/
def unitReal (cs : List Char) : Option (Nat × Nat) :=
  match decimal cs with
  | some v => if v.1 ≤ v.2 then some v else none
  | none => none

/-- The words a line begins with (R76, R77). -/
inductive Keyword where
  | init | setp | proc | rdreg | frameData | setTime | setDepth | setTimeReal | setDepthReal | frameOne | nop
  deriving DecidableEq, Repr

/-- Each keyword and its spelling. -/
def keywords : List (List Char × Keyword) :=
  [ (['I', 'N', 'I', 'T'], .init),
    (['S', 'E', 'T', 'P'], .setp),
    (['P', 'R', 'O', 'C'], .proc),
    (['R', 'D', 'R', 'E', 'G'], .rdreg),
    (['.', 'f', 'r', 'a', 'm', 'e'], .frameData),
    (['S', 'E', 'T', 'T', 'I', 'M', 'E'], .setTime),
    (['S', 'E', 'T', 'D', 'E', 'P', 'T', 'H'], .setDepth),
    (['S', 'E', 'T', 'T', 'I', 'M', 'E', '.', 'f'], .setTimeReal),
    (['S', 'E', 'T', 'D', 'E', 'P', 'T', 'H', '.', 'f'], .setDepthReal),
    (['F', 'R', 'A', 'M', 'E'], .frameOne),
    (['N', 'O', 'P'], .nop) ]

def keywordOf (cs : List Char) : Option Keyword := (keywords.find? fun k => decide (k.1 = cs)).map Prod.snd

/-- A line's meaning from its keyword and operands. -/
def lineOf : Keyword → List (List Char) → Option AsmLine
  | .init, [] => some .initZero
  | .init, [a, b] => both AsmLine.init (wordOf a) (wordOf b)
  | .setp, [a, b] => both AsmLine.setp (pidxOf a) (wordOf b)
  | .proc, [a] => (wordOf a).map AsmLine.proc
  | .rdreg, [a] => (regOf a).map AsmLine.rdreg
  | .frameData, [a, b, c, d] =>
    both (fun p q => AsmLine.frameData p.1 p.2 q.1 q.2) (both Prod.mk (sampleOf a) (sampleOf b))
      (both Prod.mk (sampleOf c) (sampleOf d))
  | .setTime, [a] => (wordOf a).map AsmLine.setTime
  | .setDepth, [a] => (wordOf a).map AsmLine.setDepth
  | .setTimeReal, [a] => (unitReal a).map fun v => AsmLine.setTimeReal v.1 v.2
  | .setDepthReal, [a] => (unitReal a).map fun v => AsmLine.setDepthReal v.1 v.2
  | .frameOne, [] => some .frameOne
  | .nop, [] => some .nop
  | _, _ => none

/-- One line of text (R76, R77); `none` where it has no such form. -/
def assembleLine (text : List Char) : Option AsmLine :=
  match tokens text with
  | [] => none
  | t :: operands => (keywordOf t).bind fun k => lineOf k operands

/-- A program's text, one command a line; lines with nothing but a comment are passed over. -/
def assemble (text : List Char) : Option (List AsmLine) :=
  ((cut (fun c => decide (c = '\n')) text).filter fun line => !(tokens line).isEmpty).mapM assembleLine

end Sys2Proof.Machine
end

