-- ==== Sys2Proof/Tests/Slice0.lean ====
section
/-! SUPPORT. Tests: the encodings, the worked vectors of 95_test_vectors, ill-formed terms, and for each statement with
hypotheses a state that meets them. Expected values are the spec's. -/

namespace Sys2Proof.Tests
open Sys2Proof Sys2Proof.Machine

/-! ## Small states -/

/-- The defaults of 00_scope R6, with INIT_LFO_RATE and INIT_DEVIATION at 0. -/
def cfg : Config := { Config.default with initDeviation := 0, initLfoRate := 0, minLfoRate := 0 }

/-- The table of 95_test_vectors, its first two entries and its last. -/
def table : Memory := [(0, 0x3F800000), (1, 0x3F7F8000), (1023, 0xBF7F8000)]

def uninit : State := State.boot cfg table
def ready : State := uninit.initialise
def halted : State := uninit.raiseFault .notInitialized
/-- READY with some words on the sample input stream. -/
def fed (ws : List Word) : State := { ready with sampleIn := ws }
/-- READY with a PROCESS of two frames waiting for words. -/
def starved : State := { ready with framesLeft := 2 }

/-- A property of the next state; false of any other outcome. -/
def next (o : Outcome) (p : State → Bool) : Bool :=
  match o with
  | .next s => p s
  | .fault _ => false
  | .refused _ => false

/-! ## Decoding: the fields of 30_encoding R62 written out -/

theorem test_decode_init :
    decodeCommand [(0x0#4 ++ 0#28 : Word), 1, 2, 3] = .command (.init 1 2) [3] := by decide
theorem test_decode_setParamTime :
    decodeCommand [(0x1#4 ++ 0#20 ++ 0#8 : Word), 0x7FFFFFFF] = .command (.setParamTime 0x7FFFFFFF) [] := by decide
theorem test_decode_setParamDepth :
    decodeCommand [(0x1#4 ++ 0#20 ++ 1#8 : Word), 0x40000000] = .command (.setParamDepth 0x40000000) [] := by decide
theorem test_decode_setParamNone :
    decodeCommand [(0x1#4 ++ 0#20 ++ 0xFF#8 : Word), 9] = .command (.setParamNone 255 9) [] := by decide
theorem test_decode_process :
    decodeCommand [(0x2#4 ++ 0#28 : Word), 4] = .command (.process 4) [] := by decide
theorem test_decode_readReg :
    decodeCommand [(0x3#4 ++ 0#23 ++ 0x0F#5 : Word), 9] = .command (.readReg .f1) [9] := by decide
/-- V-E2, V-E7, V-E9, V-E12, V-E13, V-E14, V-E16. -/
theorem test_decode_illegal :
    decodeHeader 0x00000001 = .error .reservedBits ∧ decodeHeader 0x10000100 = .error .reservedBits ∧
    decodeHeader 0x28000000 = .error .reservedBits ∧ decodeHeader 0x30000010 = .error .reservedRegister ∧
    decodeHeader 0x30000020 = .error .reservedBits ∧ decodeHeader 0x40000000 = .error .reservedOpcode ∧
    decodeHeader 0xFFFFFFFF = .error .reservedOpcode := by decide
theorem test_decode_incomplete : decodeCommand [0x00000000, 1] = .incomplete := by decide
/-- 20_memory R49: byte 0 holds bits 7:0. -/
theorem test_decode_bytes :
    decodeBytes [0x07, 0x00, 0x00, 0x10, 0x01, 0x02, 0x03, 0x04] = .command (.setParamNone 7 0x04030201) [] := by decide
theorem test_decode_table_word : decodeTableWord 32 0x20000000 = some (.process 0) := by decide
theorem test_first_step_runs_the_table_word :
    next (step (State.reset.withFetchWord 32 0x00000000)) (fun s => decide (s.mode = .ready) && s.cmdPort.isEmpty)
      = true := by decide

/-- A command placed behind untaken output words is the next one all the same. -/
theorem test_withFetchWord_after_output :
    next (step (({ starved with sampleOut := [1, 2] } : State).withFetchWord 32 0x30000000)) (fun s =>
      decide (s.readback = [1] ∧ s.cmdPort = [])) = true := by decide

/-! ## Ill-formed terms -/

theorem test_setParamNone_index_0_illFormed : (Instr.setParamNone 0 5).wellFormed = false := by decide
theorem test_setParamNone_index_1_illFormed : (Instr.setParamNone 1 5).wellFormed = false := by decide
theorem test_config_wellFormed : cfg.wellFormed = true := by decide
/-- R7 (b): deviation above the centre, negative or too large an initial deviation. -/
theorem test_config_deviation_illFormed :
    ({ cfg with maxFrequencyDeviation := 0x44960001 } : Config).deviationOk = false ∧
    ({ cfg with initDeviation := 0xBF800000 } : Config).deviationOk = false ∧
    ({ cfg with initDeviation := 0x44898001 } : Config).deviationOk = false := by decide
/-- R7 (c): Q 0 and Q 2 lie outside. -/
theorem test_config_q_illFormed :
    ({ cfg with qConst := 0 } : Config).qOk = false ∧ ({ cfg with qConst := 0x40000000 } : Config).qOk = false := by decide
/-- R7 (d). -/
theorem test_config_rate_illFormed :
    ({ cfg with initLfoRate := 0x41A00001 } : Config).rateOk = false ∧
    ({ cfg with initLfoRate := 0xBF800000 } : Config).rateOk = false ∧
    ({ cfg with maxLfoRate := 0xBF800000 } : Config).rateOk = false := by decide
/-- R7 (e): zero, and infinite. -/
theorem test_config_sampleRate_illFormed :
    ({ cfg with sampleRate := 0 } : Config).sampleRateOk = false ∧
    ({ cfg with sampleRate := 0x7F800000 } : Config).sampleRateOk = false := by decide
/-- R7 (f). -/
theorem test_config_table_illFormed :
    ({ cfg with tableSize := 512 } : Config).tableShapeOk = false ∧
    ({ cfg with tableMask := 0x1FF } : Config).tableShapeOk = false := by decide
/-- R7 (g): a sample rate of 7000 Hz puts F1max at 2.06 (2300 Hz), outside the convergent range of R94. -/
theorem test_config_divergent_illFormed :
    ({ cfg with sampleRate := 0x45DAC000 } : Config).convergenceOk = false := by decide
/-- R7 (a): an entry above 1.0, and a NaN. -/
theorem test_table_entry_illFormed :
    Memory.inRange [(5, 0x3F800001)] = false ∧ Memory.inRange [(5, 0x7FC00000)] = false := by decide
theorem test_powerOn_refuses :
    (match powerOn { cfg with qConst := 0 } [] with | .refused .illFormedConfiguration => true | _ => false) = true := by
  decide

/-! ## Arithmetic: 95_test_vectors 2.2 to 2.4 -/

/-- V-O7, V-C11: the two orders of evaluation differ. -/
theorem test_mul_div_order :
    F32.div 0 (F32.mul 0 F32.twoPi 0x42C80000) 0x473B8000 = 0x3C567750 ∧
    F32.mul 0 F32.twoPi (F32.div 0 0x42C80000 0x473B8000) = 0x3C567751 := by decide
/-- V-F8: subnormal products are kept. -/
theorem test_mul_subnormal :
    F32.mul 0 0x3E20D97C 0x00000014 = 0x00000003 ∧ F32.mul 0 0x3E2E147B 0x00000014 = 0x00000003 := by decide
/-- V-O7. -/
theorem test_draw_products :
    F32.add 0 0x44960000 (F32.mul 0 0xBF7F8000 0x44098000) = 0x4422C4C0 ∧
    F32.mul 0 0xBF400000 0x00000000 = 0x80000000 := by decide
/-- V-F11: infinities of opposite sign give the NaN result. -/
theorem test_sub_infinities : F32.sub 0x7FC00001 0x7F800000 0x7F800000 = 0x7FC00001 := by decide
/-- R108: 0x7FFFFFBF and 0x7FFFFFC0 lie on the two sides of a rounding tie. -/
theorem test_raw_conversion :
    rawToUnit 0 0x7FFFFFBF = 0x3F7FFFFF ∧ rawToUnit 0 0x7FFFFFC0 = 0x3F800000 ∧
    rawToUnit 0 0x26666666 = 0x3E99999A := by decide

/-! ## Commands -/

/-- V-I1. -/
theorem test_init :
    next (exec (.init 0xFFFFFFFF 0x12345678) uninit) (fun s =>
      decide (s.status = 1 ∧ s.phase = 0 ∧ s.tableIndex = 0 ∧ s.q = 0x3E2E147B ∧ s.f = 0x44960000 ∧ s.f1 = 0)) = true := by
  decide
/-- V-I3: TKW and DKW are cleared. -/
theorem test_init_again :
    next (exec (.init 0 0) { ready with tkw := true, timeKnob := some 1, tableIndex := 9 }) (fun s =>
      decide (s.status = 1 ∧ s.tableIndex = 0 ∧ s.timeKnob = none)) = true := by decide
/-- V-S10. -/
theorem test_setTime :
    next (exec (.setParamTime 0x40000000) ready) (fun s =>
      decide (s.timeKnob = some 0x3F000000 ∧ s.rate = 0x41200000 ∧ s.status = 5 ∧ s.f = 0x44960000)) = true := by decide
/-- V-S13. -/
theorem test_setTime_negative :
    next (exec (.setParamTime 0x80000000) ready) (fun s => decide (s.status = 0x32 ∧ s.timeKnob = none)) = true := by
  decide
/-- V-S11. -/
theorem test_setDepth :
    next (exec (.setParamDepth 0x40000000) ready) (fun s =>
      decide (s.depthKnob = some 0x3F000000 ∧ s.effectDepth = 0x44098000 ∧ s.status = 9 ∧ s.f = 0x44960000)) = true := by
  decide
/-- V-S7. -/
theorem test_setDepth_below_one :
    next (exec (.setParamDepth 0x7FFFFFBF) ready) (fun s => decide (s.effectDepth = 0x44897FFF)) = true := by decide
/-- V-S12. -/
theorem test_setNone :
    next (exec (.setParamNone 7 0x80000000) ready) (fun s => decide (s.status = 1 ∧ s.rate = 0)) = true := by decide
/-- V-X6. -/
theorem test_setNone_uninit :
    next (exec (.setParamNone 7 0) uninit) (fun s => decide (s.status = 0x12)) = true := by decide
/-- V-P2: a wrap acts in its own frame. -/
theorem test_process_wrap :
    next (exec (.process 1)
      { ready with
        phase := 0x3F7FE6F9, rate := 0x41A00000, effectDepth := 0x44098000, d1 := 0x3F000000, d2 := 0x3E800000,
        sampleIn := [0x3F800000, 0, 0, 0] }) (fun s =>
      decide (s.phase = 0x38120000 ∧ s.tableIndex = 1 ∧ s.f = 0x44DAC000 ∧ s.f1 = 0x3E6A927F ∧ s.l = 0x3EBAA4A0 ∧
        s.h = 0x3F0CEB21 ∧ s.b = 0x3F2047E4 ∧ s.n = 0x3F6A3D71 ∧ s.sampleOut = [0x3EBAA4A0, 0x3EBAA4A0, 0, 0])) = true := by
  decide
/-- V-P1, and V-F10: a NaN primary input leaves its frame's output at +0.0. -/
theorem test_process_first_frame :
    next (exec (.process 1) (fed [0x3F800000, 0x3F000000, 0x7FC00001, 0x80000000])) (fun s =>
      decide (s.sampleOut = [0, 0, 0x7FC00001, 0x80000000] ∧ s.d1 = 0x3E20D97C ∧ s.d2 = 0)) = true ∧
    next (exec (.process 1) (fed [0x7F800001, 0, 0, 0])) (fun s => decide (s.sampleOut = [0, 0, 0, 0])) = true := by
  decide
/-- V-I6. -/
theorem test_readReg_knob :
    next (exec (.readReg .timeKnob) { ready with tkw := true, timeKnob := some 0x3F000000 }) (fun s =>
      decide (s.readback = [0x3F000000])) = true := by decide
/-- V-X9: TKW is kept in STATUS. -/
theorem test_readReg_unwritten :
    next (exec (.readReg .depthKnob) { ready with tkw := true, timeKnob := some 1 }) (fun s =>
      decide (s.status = 0x46 ∧ s.readback = [])) = true := by decide
/-- V-X1: decoding comes before the lifecycle. -/
theorem test_step_illegal :
    next (step { uninit with cmdPort := [0x50000000, 7] }) (fun s =>
      decide (s.status = 0x22 ∧ s.cmdPort = [7])) = true := by decide
/-- V-X12: in HALTED an INIT header is discarded, word by word. -/
theorem test_step_halted :
    next (step { halted with cmdPort := [0, 0x30000000] }) (fun s =>
      decide (s.status = 0x12 ∧ s.cmdPort = [0x30000000] ∧ s.readback = [])) = true ∧
    next (step { halted with cmdPort := [0x30000000] }) (fun s => decide (s.readback = [0x12])) = true := by decide
/-- V-O10. -/
theorem test_index_wraps :
    ({ ready with wrap := true, tableIndex := 0x3FF, effectDepth := 0x44098000 } : State).wrapDraw.indexStep.tableIndex = 0 ∧
    ({ ready with wrap := true, tableIndex := 0x3FF, effectDepth := 0x44098000 } : State).wrapDraw.f = 0x4422C4C0 := by
  decide
/-- 30_encoding R77, 95_test_vectors 2.1. -/
theorem test_assemble :
    (assembleLine ['S', 'E', 'T', 'T', 'I', 'M', 'E', '.', 'f', ' ', '0', '.', '3']).map AsmLine.commandWords
      = some [0x10000000, 0x26666666] := by decide
/-- 95_test_vectors P1. -/
theorem test_assemble_frame :
    (assembleLine ['.', 'f', 'r', 'a', 'm', 'e', ' ', '1', '.', '0', ',', '0', '.', '5', ',', '0', 'x', '7', 'F', 'C', '0',
      '0', '0', '0', '1', ',', '-', '2', '.', '0']).map AsmLine.sampleWords
      = some [0x3F800000, 0x3F000000, 0x7FC00001, 0xC0000000] := by decide

/-! ## Witnesses: states and operands that meet the hypotheses of a statement, clause by clause -/

theorem witness_EncodedCommandDecodesToItself :
    (Instr.setParamNone 2 0).wellFormed = true ∧ (Instr.setParamNone 255 0xFFFFFFFF).wellFormed = true ∧
    (Instr.readReg .f1).wellFormed = true := by decide
theorem witness_DecodedCommandWasEncoded :
    decodeCommand [0x10000002, 7, 8] = .command (.setParamNone 2 7) [8] := by decide
theorem witness_IllegalHeaderHaltsTheCore :
    uninit.mode ≠ .halted ∧ ready.mode ≠ .halted ∧ ready.framesLeft = 0 ∧ ready.outputTaken = true ∧
    4 ≤ ((0x40000000 : Word).extractLsb' 28 4).toNat ∧
    ((0x08000000 : Word).extractLsb' 28 4 = 0 ∧ (0x08000000 : Word).extractLsb' 0 28 ≠ 0) ∧
    ((0x10000100 : Word).extractLsb' 28 4 = 1 ∧ (0x10000100 : Word).extractLsb' 8 20 ≠ 0) ∧
    ((0x20000001 : Word).extractLsb' 28 4 = 2 ∧ (0x20000001 : Word).extractLsb' 0 28 ≠ 0) ∧
    ((0x30000020 : Word).extractLsb' 28 4 = 3 ∧ (0x30000020 : Word).extractLsb' 5 23 ≠ 0) ∧
    ((0x30000010 : Word).extractLsb' 28 4 = 3 ∧ (0x30000010 : Word).extractLsb' 4 1 = 1) := by decide
theorem witness_StepRunsTheDecodedCommand :
    ({ ready with cmdPort := [0x20000000, 1] } : State).mode ≠ .halted ∧ ready.framesLeft = 0 ∧ ready.outputTaken = true ∧
    decodeCommand [0x20000000, 1] = .command (.process 1) [] := by decide
theorem witness_HaltedCoreTakesWordsOneByOne :
    halted.mode = .halted ∧ halted.framesLeft = 0 ∧ halted.outputTaken = true ∧
    halted.faultCause = .notInitialized ∧ halted.tkw = false ∧ halted.dkw = false ∧
    ({ halted with cmdPort := [0x30000000, 0] } : State).cmdPort = 0x30000000 :: [0] ∧
    ({ halted with cmdPort := [0] } : State).cmdPort = (0 : Word) :: [] ∧
    next (step { halted with cmdPort := [0] }) (fun _ => true) = true := by decide
theorem witness_WaitingCoreStaysAsItIs :
    uninit.mode ≠ .halted ∧ uninit.framesLeft = 0 ∧ decodeCommand uninit.cmdPort = .incomplete ∧
    decodeCommand [0x00000000, 1] = .incomplete ∧
    ready.framesLeft = 0 ∧ ({ ready with sampleOut := [1] } : State).outTaken < ([1] : List Word).length ∧
    halted.mode = .halted ∧ halted.framesLeft = 0 ∧ halted.cmdPort = [] ∧
    starved.framesLeft ≠ 0 ∧ starved.sampleIn.length < 4 ∧
    ({ starved with sampleIn := [1, 2, 3] } : State).sampleIn.length < 4 := by decide
theorem witness_RunningBlockTakesNoCommand :
    starved.framesLeft ≠ 0 ∧
    (let s := { ready with sampleOut := [1, 2], outTaken := 1 }
     s.outTaken < s.sampleOut.length ∧ next (step s) (fun _ => true) = true) ∧
    next (step { starved with sampleIn := [1, 2, 3, 4], cmdPort := [0x30000000] }) (fun _ => true) = true := by decide
theorem witness_InitWritesItsRegisters :
    uninit.mode ≠ .halted ∧ ready.mode ≠ .halted ∧ halted.mode = .halted := by decide
theorem witness_InitIsIdempotent :
    uninit.mode ≠ .halted ∧ ready.mode ≠ .halted ∧ uninit.cfg = ready.cfg ∧ uninit.faultCause = ready.faultCause ∧
    next (exec (.init 1 2) uninit) (fun _ => true) = true ∧ next (exec (.init 3 4) ready) (fun _ => true) = true := by
  decide
theorem witness_StatusIsReadInEveryMode :
    halted.mode = .halted ∧ Instr.process 0 ≠ .readReg .status ∧ Instr.readReg .phase ≠ .readReg .status ∧
    uninit.mode = .uninit ∧ uninit.inv = true := by decide
theorem witness_StatusFieldsReportTheLifecycle :
    uninit.faultCause = .none ∧ (uninit.raiseFault .notInitialized).faultCause = .notInitialized ∧
    (uninit.raiseFault .illegalCommand).faultCause = .illegalCommand ∧
    (ready.raiseFault .rawOutOfRange).faultCause = .rawOutOfRange ∧
    (ready.raiseFault .unwrittenRead).faultCause = .unwrittenRead ∧
    uninit.mode = .uninit ∧ uninit.inv = true ∧ ready.mode ≠ .halted ∧ ready.faultCause = .none ∧
    next (exec (.init 0 0) ready) (fun _ => true) = true := by decide
theorem witness_ReadRegReturnsTheRegister :
    ready.mode = .ready ∧ ready.dkw = false ∧ ready.tkw = false ∧ uninit.mode = .uninit ∧ Reg.phase ≠ .status ∧
    (let s := { ready with dkw := true, depthKnob := some 1, tkw := true, timeKnob := some 2 }
     s.mode = .ready ∧ s.dkw = true ∧ s.depthKnob = some 1 ∧ s.tkw = true ∧ s.timeKnob = some 2) ∧
    uninit.cfg.maxLfoRate = 0x41A00000 ∧ uninit.mode ≠ .halted ∧
    next (exec (.init 0 0) uninit) (fun t => next (exec (.setParamTime 0x40000000) t) (fun _ => true)) = true := by decide
theorem witness_UnwrittenKnobReadHalts : ready.mode = .ready ∧ ready.dkw = false ∧ ready.tkw = false := by decide
theorem witness_SetTimeWritesTheRate :
    ready.mode = .ready ∧ (0x7FFFFFFF : Word).toNat < 2 ^ 31 ∧ uninit.mode = .uninit ∧ 2 ^ 31 ≤ (0x80000000 : Word).toNat ∧
    F32.isFinite ready.cfg.maxLfoRate = true ∧ F32.sign ready.cfg.maxLfoRate = false ∧
    F32.isNaN ready.cfg.maxLfoRate = false ∧ ready.cfg.maxLfoRate = 0x41A00000 ∧
    next (exec (.setParamTime 0x00000000) ready) (fun _ => true) = true ∧
    next (exec (.setParamTime 0x7FFFFFFF) ready) (fun _ => true) = true ∧
    next (exec (.setParamTime 0x40000000) ready) (fun _ => true) = true ∧
    next (exec (.setParamTime 0x26666666) ready) (fun _ => true) = true ∧
    next (exec (.setParamTime 0x0CCCCCCD) ready) (fun _ => true) = true := by decide
theorem witness_SetDepthWritesTheEffectDepth :
    ready.mode = .ready ∧ (0x7FFFFFFF : Word).toNat < 2 ^ 31 ∧ uninit.mode = .uninit ∧ 2 ^ 31 ≤ (0x80000000 : Word).toNat ∧
    F32.isFinite ready.cfg.maxFrequencyDeviation = true ∧ F32.sign ready.cfg.maxFrequencyDeviation = false ∧
    ready.cfg.maxFrequencyDeviation = 0x44898000 ∧
    next (exec (.setParamDepth 0x00000000) ready) (fun t =>
      let u := { t with wrap := true }
      decide (u.cfg = ready.cfg) && decide (u.effectDepth = t.effectDepth) && u.wrap && u.configOk) = true ∧
    next (exec (.setParamDepth 0x40000000) ready) (fun _ => true) = true ∧
    next (exec (.setParamDepth 0x7FFFFFFF) ready) (fun _ => true) = true ∧
    next (exec (.setParamDepth 0x26666666) ready) (fun _ => true) = true ∧
    next (exec (.setParamDepth 0x0CCCCCCD) ready) (fun _ => true) = true ∧
    next (exec (.setParamDepth 0x7FFFFFBF) ready) (fun _ => true) = true := by decide
theorem witness_SetNoneHasNoEffect : ready.mode = .ready ∧ uninit.mode = .uninit := by decide
theorem witness_NegativeRawHalts :
    ready.mode = .ready ∧ 2 ^ 31 ≤ (0x80000000 : Word).toNat ∧
    (let s := { halted with faultCause := .rawOutOfRange }
     next (exec (.setParamNone 2 0) s) (fun t => decide (t.faultCause = .rawOutOfRange)) = true) := by decide
theorem witness_RawConversionIsExact :
    (0x7FFFFFFF : Word).toNat < 2 ^ 31 ∧ 0x7FFFFFC0 ≤ (0x7FFFFFC0 : Word).toNat ∧ (0x7FFFFFC0 : Word).toNat < 2 ^ 31 ∧
    2 ^ 31 ≤ (0x80000000 : Word).toNat := by
  decide
theorem witness_ParametersStayInRange :
    ready.cfg.ordinary = true ∧ ready.mode = .ready ∧ (0x7FFFFFC0 : Word).toNat < 2 ^ 31 ∧
    0x7FFFFFC0 ≤ (0x7FFFFFC0 : Word).toNat ∧ next (exec (.setParamTime 0x7FFFFFC0) ready) (fun _ => true) = true ∧
    next (exec (.setParamDepth 0x7FFFFFC0) ready) (fun _ => true) = true := by decide
theorem witness_SetParamLeavesTheRest :
    next (exec (.setParamTime 1) ready) (fun _ => true) = true ∧ next (exec (.setParamDepth 1) ready) (fun _ => true) = true ∧
    next (exec (.setParamNone 2 1) ready) (fun _ => true) = true := by decide
theorem witness_SetParamLeavesTheRest_not_time :
    (¬∃ raw, Instr.setParamDepth 1 = .setParamTime raw) ∧ (¬∃ raw, Instr.setParamTime 1 = .setParamDepth raw) := by
  constructor <;> rintro ⟨_, h⟩ <;> cases h
theorem witness_CommandBeforeInitHalts :
    uninit.mode = .uninit ∧ (∀ p a, Instr.process 0 ≠ .init p a) ∧ Instr.process 0 ≠ .readReg .status ∧
    next (exec (.init 0 0) uninit) (fun _ => true) = true ∧
    next (exec (.readReg .status) uninit) (fun _ => true) = true := by
  refine ⟨by decide, ?_, by decide, by decide, by decide⟩
  intro p a h
  cases h
theorem witness_ModeChangesOnlyAsTheLifecycleSays :
    next (step { uninit with cmdPort := [0, 0, 0] }) (fun t => decide (t.mode = .ready)) = true ∧
    next (step { uninit with cmdPort := [0x50000000] }) (fun t => decide (t.mode = .halted)) = true ∧
    next (step uninit) (fun t => decide (t.mode = .uninit)) = true := by decide
theorem witness_FaultEntryWritesTwoRegisters :
    next (step { ready with cmdPort := [0x10000000, 0x80000000] }) (fun t =>
      decide (ready.mode ≠ .halted ∧ t.mode = .halted ∧ t.faultCause ≠ ready.faultCause)) = true := by decide
theorem witness_TableAndConstantsNeverChange :
    next (step { fed [1, 2, 3, 4] with cmdPort := [0x20000000, 1] }) (fun _ => true) = true := by decide
theorem witness_QIsWrittenOnlyByInit :
    next (step { uninit with cmdPort := [0, 0, 0] }) (fun t => decide (t.q ≠ uninit.q)) = true := by decide
theorem witness_TargetFrequencyChangesOnlyAtAWrap :
    (fed [1, 2, 3, 4]).mode = .ready ∧ next (exec (.process 1) (fed [1, 2, 3, 4])) (fun _ => true) = true ∧
    wrapCount (1 : Word).toNat (fed [1, 2, 3, 4]) = 0 ∧ (∀ p a, Instr.readReg .f ≠ .init p a) ∧
    (∀ k, Instr.readReg .f ≠ .process k) ∧ next (exec (.readReg .f) ready) (fun _ => true) = true ∧
    (let s := { starved with sampleIn := [1, 2, 3, 4] }
     s.framesLeft ≠ 0 ∧ next (step s) (fun _ => true) = true ∧ wrapCount s.framesLeft.toNat s = 0) := by
  refine ⟨by decide, by decide, by decide, ?_, ?_, by decide, by decide⟩
  · intro p a h
    cases h
  · intro k h
    cases h
theorem witness_PhaseAdvancesByRateOverSampleRate :
    (let s := { ready with rate := 0x41A00000, phase := 0x3F7FFFFF }
     s.cfg.sampleRate = 0x473B8000 ∧ s.rate.toNat ≤ 0x41A00000 ∧ s.phaseOk = true) ∧
    (ready.cfg.sampleRateOk = true ∧ ready.rate = 0x00000000 ∧ ready.phaseOk = true) := by decide
theorem witness_WrapFoldsThePhaseExactly :
    (let s := { ready with phase := 0x7F7FFFFF }
     0x3F800000 ≤ s.phase.toNat ∧ s.phase.toNat < 0x7F800000) ∧
    ({ ready with phase := 0x3F7FFFFF } : State).phase.toNat < 0x3F800000 ∧
    F32.isNaN ({ ready with phase := 0x7FC00000 } : State).phase = true ∧
    ({ ready with phase := 0x3F800000 } : State).phase = 0x3F800000 ∧
    (let s := { ready with phase := 0x3FFFFFFF }
     0x3F800000 ≤ s.phase.toNat ∧ s.phase.toNat < 0x40000000) ∧
    (let s := { ready with phase := 0x3F7FE6F9, rate := 0x41A00000 }
     s.cfg.sampleRate = 0x473B8000 ∧ s.rate = 0x41A00000 ∧ s.phase = 0x3F7FE6F9) := by decide
theorem witness_WrapDrawsTheNextEntry :
    (let s := { ready with wrap := true, tableIndex := 1023 }
     s.wrap = true ∧ s.cfg.tableMask = 0x3FF) ∧
    ready.wrap = false ∧
    (let s := { ready with wrap := true }
     s.wrap = true ∧ s.effectDepth = 0x00000000 ∧ s.configOk = true ∧ F32.sign s.cfg.centreFrequency = false) ∧
    (let s := { ready with wrap := true, table := [(0, 0xBF800000)], effectDepth := 0x44898000 }
     s.wrap = true ∧ s.cfg.centreFrequency = 0x44960000 ∧ s.memRead s.tableIndex = 0xBF800000 ∧
     s.effectDepth = 0x44898000) ∧
    (let s := { ready with wrap := true, effectDepth := 0x44098000 }
     s.wrap = true ∧ s.cfg.centreFrequency = 0x44960000 ∧ s.memRead s.tableIndex = 0x3F800000 ∧
     s.effectDepth = 0x44098000) := by decide
theorem witness_TableIndexCountsTheWraps :
    (let s := { fed [0, 0, 0, 0] with phase := 0x3F7FE6F9, rate := 0x41A00000, tableIndex := 1023 }
     s.mode = .ready ∧ s.cfg.tableMask = 0x3FF ∧ next (exec (.process 1) s) (fun _ => true) = true ∧
     wrapCount (1 : Word).toNat s = 1) ∧
    (let s := { starved with sampleIn := [0, 0, 0, 0], phase := 0x3F7FE6F9, rate := 0x41A00000, tableIndex := 1023 }
     s.framesLeft ≠ 0 ∧ s.cfg.tableMask = 0x3FF ∧ next (step s) (fun _ => true) = true ∧
     wrapCount s.framesLeft.toNat s = 1) := by decide
theorem witness_FrameReadsAtMostOneEntry :
    Memory.read [(0, 0x3F800000)] ready.tableIndex.toNat = Memory.read ready.table ready.tableIndex.toNat := by decide
theorem witness_PhaseStaysBelowOne :
    (let s := { ready with rate := 0x41A00000, phase := 0x3F7FFFFF }
     s.phaseOk = true ∧ F32.isFinite s.rate = true ∧ F32.le 0x00000000 s.rate = true ∧ s.cfg.sampleRateOk = true ∧
     F32.ge s.cfg.sampleRate 0x3F800000 = true) := by decide
theorem witness_RateZeroFreezesTheOscillator :
    (let s := { fed [1, 2, 3, 4] with phase := 0x3F000000 }
     s.mode = .ready ∧ s.rate = 0x00000000 ∧ s.phaseOk = true ∧ s.cfg.sampleRateOk = true ∧
     next (exec (.process 1) s) (fun _ => true) = true) ∧
    (let s := { starved with sampleIn := [1, 2, 3, 4], phase := 0x3F000000 }
     s.framesLeft ≠ 0 ∧ s.rate = 0x00000000 ∧ s.phaseOk = true ∧ s.cfg.sampleRateOk = true ∧
     next (step s) (fun _ => true) = true) := by decide
/-- V-O11: RATE 0x3ABB7FB0 has the increment 0x32FFFF93, just below 2^-25. -/
theorem witness_SmallIncrementNeverWraps :
    ({ ready with rate := 0x3ABB7FB0, phase := 0x3F7FFFFF } : State).mode = .ready ∧
    ({ ready with rate := 0x3ABB7FB0, phase := 0x3F7FFFFF } : State).phaseOk = true ∧
    (∀ nan : Word, (F32.div nan 0x3ABB7FB0 ready.cfg.sampleRate).toNat < 0x33000000) ∧
    next (exec (.process 1) { ready with rate := 0x3ABB7FB0, phase := 0x3F7FFFFF }) (fun _ => true) = true ∧
    starved.framesLeft ≠ 0 ∧
    next (step { starved with rate := 0x3ABB7FB0, phase := 0x3F7FFFFF, sampleIn := [0, 0, 0, 0] }) (fun _ => true)
      = true := by
  refine ⟨by decide, by decide, fun nan => ?_, by decide, by decide, by decide⟩
  have e : F32.div nan 0x3ABB7FB0 ready.cfg.sampleRate = F32.round false (F32.mag 0x3ABB7FB0 * F32.unit)
      (F32.mag 0x473B8000) := rfl
  rw [e]
  decide
theorem witness_CoefficientFollowsTheTargetFrequency :
    ready.cfg.sampleRateOk = true ∧ ({ ready with f := 0 } : State).f = 0x00000000 ∧ F32.isNaN ready.f = false ∧
    ready.cfg.sampleRate = 0x473B8000 ∧ ready.f = 0x44960000 ∧ ({ ready with f := 0x42C80000 } : State).f = 0x42C80000 ∧
    ({ ready with f := 0x450FC000 } : State).f = 0x450FC000 ∧ ({ ready with f := 0x44DAC000 } : State).f = 0x44DAC000 ∧
    ({ ready with f := 0x46BB8000 } : State).f = 0x46BB8000 := by decide
theorem witness_CoefficientStaysInRange :
    (let s := { ready with f := 0x42C80000 }
     let t := { ready with f := 0x450FC000 }
     s.cfg.sampleRateOk = true ∧ t.cfg.sampleRate = s.cfg.sampleRate ∧ F32.le 0x00000000 s.f = true ∧
     F32.le s.f t.f = true ∧ s.cfg.sampleRate = 0x473B8000 ∧ F32.le 0x42C80000 s.f = true ∧
     F32.le t.f 0x450FC000 = true ∧ F32.le 0x42C80000 t.f = true ∧ F32.le s.f 0x450FC000 = true) := by decide
theorem witness_FilterStepIsTheChamberlinStep :
    (let s := { ready with f1 := 0x3E20D97C }
     s.d1 = 0x00000000 ∧ s.d2 = 0x00000000 ∧ s.f1 = 0x3E20D97C ∧ s.q = 0x3E2E147B) := by decide
theorem witness_OutputLagsTheInputByOneFrame :
    ready.d1 = 0x00000000 ∧ ready.d2 = 0x00000000 ∧
    F32.isFinite (ready.runFrame 0x3F800000 0 0 0 []).f1 = true := by decide
theorem witness_HeldTapsChangeNothingLater :
    (fed [1, 2, 3, 4]).mode = .ready ∧ (1 : Word) ≠ 0 ∧ 4 ≤ (fed [1, 2, 3, 4]).sampleIn.length := by decide
theorem witness_OneFrameBlockComputesTheFrameStep :
    (fed [1, 2, 3, 4, 5]).mode = .ready ∧ (fed [1, 2, 3, 4, 5]).sampleIn = 1 :: 2 :: 3 :: 4 :: [5] := by decide
theorem witness_ProcessRunsExactlyItsFrames :
    (fed [1, 2, 3, 4, 5]).mode = .ready ∧ 4 * (1 : Word).toNat ≤ (fed [1, 2, 3, 4, 5]).sampleIn.length := by decide
theorem witness_ProcessEndsWhenItsOutputIsTaken :
    (let s := { fed [1, 2, 3, 4] with cmdPort := [0x20000000, 1, 0x30000000] }
     s.mode = .ready ∧ s.framesLeft = 0 ∧ s.sampleOut = [] ∧ s.outTaken = 0 ∧
     decodeCommand s.cmdPort = .command (.process 1) [0x30000000] ∧ 4 * (1 : Word).toNat ≤ s.sampleIn.length ∧
     decodeCommand [0x30000000] = .command (.readReg .status) []) := by decide
theorem witness_EmptyBlockChangesNothing : ready.mode = .ready ∧ ready.framesLeft = 0 := by decide
theorem witness_SplittingABlockChangesNothing :
    (fed [1, 2, 3, 4, 5]).mode = .ready ∧ (1 : Word).toNat + (0xFFFFFFFE : Word).toNat < 2 ^ 32 ∧
    4 * (1 : Word).toNat ≤ (fed [1, 2, 3, 4, 5]).sampleIn.length ∧
    next (exec (.process 1) (fed [1, 2, 3, 4, 5])) (fun _ => true) = true := by decide
theorem witness_LateSamplesChangeNothing :
    ready.mode = .ready ∧
    next (exec (.process 2) { ready with sampleIn := [1, 2, 3, 4, 5] }) (fun t => decide (t.framesLeft ≠ 0)) = true ∧
    next (exec (.process 1) { ready with sampleIn := [1, 2, 3, 4, 5] }) (fun t => decide (t.framesLeft = 0)) = true := by
  decide
theorem witness_MainRightInputIsDiscarded :
    ready.mode = .ready ∧ ([1, 2, 3, 4] : List Word).length = ([1, 9, 3, 4] : List Word).length ∧
    (∀ k, k % 4 ≠ 1 → ([1, 2, 3, 4] : List Word)[k]? = ([1, 9, 3, 4] : List Word)[k]?) ∧
    next (exec (.process 1) { ready with sampleIn := [1, 2, 3, 4] }) (fun _ => true) = true ∧
    next (exec (.process 1) { ready with sampleIn := [1, 9, 3, 4] }) (fun _ => true) = true := by
  refine ⟨by decide, by decide, fun k hk => ?_, by decide, by decide⟩
  match k with
  | 0 => rfl
  | 1 => exact absurd rfl hk
  | 2 => rfl
  | 3 => rfl
  | _ + 4 => rfl
theorem witness_LifecycleInvariantIsKept :
    ready.inv = true ∧ uninit.inv = true ∧ halted.inv = true ∧ starved.inv = true ∧
    next (step ready) (fun _ => true) = true := by decide
theorem witness_NumericRangesAreKept :
    (let s := { ready with cmdPort := [0x20000000, 1], sampleIn := [1, 2, 3, 4] }
     s.cfg.ordinary = true ∧ s.inv = true ∧ s.numericOk = true ∧ next (step s) (fun _ => true) = true) := by decide
theorem witness_PowerOnResetEmptiesTheCore : Reg.f ≠ .status ∧ Reg.f1 ≠ .status := by decide
theorem witness_InvariantsHoldAtReset : next (powerOn cfg table) (fun _ => true) = true := by decide
theorem witness_IllFormedConfigurationIsRefused :
    Memory.wf [] = true ∧ next (powerOn cfg []) (fun s => decide (s.cfg = cfg ∧ s.table = [])) = true ∧
    next (powerOn { cfg with qConst := 0 } []) (fun _ => true) = false ∧
    F32.isFinite cfg.f1Max = true := by decide
theorem witness_NumbersDoNotDependOnTheFreeNaN :
    F32.isNaN 0x7FC00000 = true ∧ F32.isNaN (F32.add 0x7FC00000 1 1) = false ∧
    F32.isNaN (F32.sub 0x7FC00000 1 1) = false ∧ F32.isNaN (F32.mul 0x7FC00000 1 1) = false ∧
    F32.isNaN (F32.div 0x7FC00000 1 1) = false := by decide
theorem witness_ArithmeticRoundsToNearestEven :
    F32.isFinite 0x7F7FFFFF = true ∧ F32.isFinite 0x00000001 = true ∧ F32.isNaN 0x7F800000 = false ∧
    F32.isZero 0x00000001 = false := by decide

end Sys2Proof.Tests
end

section
/-! SUPPORT. Values of binary32 words: signed magnitudes, negation, comparisons, and finite words. -/

namespace Sys2Proof.F32

/-! ## Signed magnitudes -/

/-- The integer with a sign and a magnitude. -/
def signed (neg : Bool) (n : Nat) : Int := if neg then -(n : Int) else (n : Int)

theorem val_eq_signed (w : Word) : val w = signed (sign w) (mag w) := rfl

theorem signed_not (s : Bool) (n : Nat) : signed (!s) n = -signed s n := by
  cases s <;> simp [signed]

theorem signed_mul (s t : Bool) (m n : Nat) : signed s m * signed t n = signed (s != t) (m * n) := by
  cases s <;> cases t <;> simp [signed]

/-- Scaling by a natural number scales the magnitude. -/
theorem signed_mul_natCast (s : Bool) (n k : Nat) : signed s n * (k : Int) = signed s (n * k) := by
  cases s <;> simp [signed]

/-- An integer is the sign of its comparison with 0 and its absolute value. -/
theorem signed_natAbs (v : Int) : signed (decide (v < 0)) v.natAbs = v := by
  by_cases h : v < 0
  · simp only [signed, h, decide_true, if_true]; omega
  · simp only [signed, h, decide_false, Bool.false_eq_true, if_false]; omega

/-- Two values of one sign are as far apart as their magnitudes. -/
theorem natAbs_signed_sub_signed (s : Bool) (m n : Nat) :
    (signed s m - signed s n).natAbs = ((m : Int) - (n : Int)).natAbs := by
  cases s
  · rfl
  · simp only [signed, if_true]; omega

/-- Two values of unlike sign are as far apart as the sum of their magnitudes. -/
theorem natAbs_signed_sub_signed_not (s : Bool) (m n : Nat) : (signed s m - signed (!s) n).natAbs = m + n := by
  cases s <;> simp only [signed, Bool.not_true, Bool.not_false, Bool.false_eq_true, if_false, if_true]
  · omega
  · omega

/-! ## Negation -/

theorem bits_neg (w : Word) : (neg w).toNat % 2 ^ 31 = w.toNat % 2 ^ 31 := by
  rw [neg, BitVec.toNat_xor, Nat.xor_mod_two_pow]
  exact Nat.xor_zero _

theorem sign_eq_decide_div (w : Word) : sign w = decide (w.toNat / 2 ^ 31 = 1) := by
  have := w.isLt
  simp only [sign, decide_eq_decide]
  omega

@[simp] theorem sign_neg (w : Word) : sign (neg w) = !sign w := by
  have hq : w.toNat / 2 ^ 31 = 0 ∨ w.toNat / 2 ^ 31 = 1 := by have := w.isLt; omega
  rw [sign_eq_decide_div, sign_eq_decide_div, neg, BitVec.toNat_xor, Nat.xor_div_two_pow]
  rcases hq with h | h
  · rw [h]; rfl
  · rw [h]; rfl

@[simp] theorem val_neg (w : Word) : val (neg w) = -val w := by
  rw [val_eq_signed, sign_neg, mag, bits_neg, signed_not]
  rfl

/-! ## Finite words -/

/-- A word is finite where its magnitude bits lie below those of an infinity. -/
theorem isFinite_iff {w : Word} : isFinite w = true ↔ w.toNat % 2 ^ 31 < 0x7F800000 := by
  rw [isFinite, decide_eq_true_iff, expo]
  omega

@[simp] theorem isFinite_neg (w : Word) : isFinite (neg w) = isFinite w := by
  rw [Bool.eq_iff_iff, isFinite_iff, isFinite_iff, bits_neg]

theorem isNaN_of_isFinite {w : Word} (h : isFinite w = true) : isNaN w = false := by
  rw [isFinite, decide_eq_true_iff] at h
  simp [isNaN, h]

theorem isInf_of_isFinite {w : Word} (h : isFinite w = true) : isInf w = false := by
  rw [isFinite, decide_eq_true_iff] at h
  simp [isInf, h]

/-- A word that is not finite counts at least 2^128. -/
theorem overflow_le_mag {w : Word} (h : isFinite w = false) : overflow ≤ mag w := by
  have he : w.toNat % 2 ^ 31 / 2 ^ 23 = 255 := by
    rw [Bool.eq_false_iff, ne_eq, isFinite_iff] at h
    omega
  rw [mag, magOfBits, he, if_neg (by decide), overflow, show (277 : Nat) = 23 + 254 from rfl, Nat.pow_add]
  exact Nat.mul_le_mul_right _ (Nat.le_add_right _ _)

theorem mag_pos_of_not_isZero {w : Word} (h : isZero w = false) : 0 < mag w := by
  simp only [isZero, decide_eq_false_iff_not] at h
  rw [mag, magOfBits]
  split
  · omega
  · exact Nat.mul_pos (by omega) (Nat.two_pow_pos _)

/-- Only a finite word has a positive value below 2^128. -/
theorem isFinite_of_val_lt {w : Word} {bound : Nat} (hb : bound ≤ overflow) (hpos : 0 < val w)
    (hlt : val w < (bound : Int)) : isFinite w = true := by
  by_contra hf
  have hm : bound ≤ mag w := hb.trans (overflow_le_mag (Bool.eq_false_iff.2 hf))
  rw [val] at hpos hlt
  split at hpos
  · omega
  · next hs =>
    rw [if_neg hs] at hlt
    omega

/-! ## Comparisons -/

theorem ge_iff {a b : Word} : ge a b = true ↔ isNaN a = false ∧ isNaN b = false ∧ val b ≤ val a := by
  simp only [ge, Bool.and_eq_true, Bool.not_eq_true', decide_eq_true_eq, and_assoc]

theorem le_iff {a b : Word} : le a b = true ↔ isNaN a = false ∧ isNaN b = false ∧ val a ≤ val b := by
  rw [le, ge_iff, and_left_comm]

theorem lt_iff {a b : Word} : lt a b = true ↔ isNaN a = false ∧ isNaN b = false ∧ val a < val b := by
  simp only [lt, Bool.and_eq_true, Bool.not_eq_true', decide_eq_true_eq, and_assoc]

theorem zero_le_iff {w : Word} : le zero w = true ↔ isNaN w = false ∧ 0 ≤ val w := by
  rw [le_iff, show val zero = 0 by decide]
  exact and_iff_right (by decide)

theorem zero_lt_iff {w : Word} : lt zero w = true ↔ isNaN w = false ∧ 0 < val w := by
  rw [lt_iff, show val zero = 0 by decide]
  exact and_iff_right (by decide)

/-- 2.0 bounds from above exactly the values below twice the unit. -/
theorem lt_two_iff {w : Word} : lt w 0x40000000 = true ↔ isNaN w = false ∧ val w < 2 * 2 ^ 149 := by
  rw [lt_iff, show val 0x40000000 = 2 * 2 ^ 149 by decide]
  exact and_congr_right fun _ => and_iff_right (by decide)

/-- [-1.0, 1.0] as values (00_scope R7 a). -/
theorem le_negOne_and_le_one_iff {w : Word} : (le 0xBF800000 w && le w one) = true ↔
    isNaN w = false ∧ -(2 ^ 149) ≤ val w ∧ val w ≤ 2 ^ 149 := by
  rw [Bool.and_eq_true, le_iff, le_iff, show val 0xBF800000 = -(2 ^ 149) by decide, show val one = 2 ^ 149 by decide]
  have h1 : isNaN 0xBF800000 = false := by decide
  have h2 : isNaN one = false := by decide
  tauto

end Sys2Proof.F32
end

section
/-! PROOFS. Rounding answers a nearest binary32 value, an even one where another is as near (00_scope R11). -/

namespace Sys2Proof.F32

/-! ## Magnitudes -/

/-- The magnitude of the bits that `roundMag` composes from a scale and a significand; a significand of 2^24 carries
into the exponent. -/
theorem magOfBits_scaled {k x : Nat} (hx : x ≤ 2 ^ 24) (hk : k ≠ 0 → 2 ^ 23 ≤ x) :
    magOfBits (k * 2 ^ 23 + x) = x * 2 ^ k := by
  rcases Nat.lt_or_ge x (2 ^ 23) with hlt | hge
  · have h0 : k = 0 := by by_contra h; have := hk h; omega
    subst h0
    rw [magOfBits, if_pos (by omega)]
    omega
  · rcases Nat.lt_or_eq_of_le hx with hlt | rfl
    · rw [magOfBits, show (k * 2 ^ 23 + x) / 2 ^ 23 = k + 1 by omega,
        show (k * 2 ^ 23 + x) % 2 ^ 23 = x - 2 ^ 23 by omega, if_neg (by omega), Nat.add_sub_of_le hge,
        Nat.add_sub_cancel]
    · rw [magOfBits, show (k * 2 ^ 23 + 2 ^ 24) / 2 ^ 23 = k + 2 by omega,
        show (k * 2 ^ 23 + 2 ^ 24) % 2 ^ 23 = 0 by omega, if_neg (by omega), show k + 2 - 1 = k + 1 by omega,
        Nat.pow_succ]
      ring

/-- No multiple of `d` is nearer to `n` than the rounded quotient's, nor is anything else outside the gap between the
two multiples around `n`; on a tie the rounded quotient is even. -/
theorem divNearestEven_nearest {n d y : Nat} (hd : 0 < d) (hy : y ≤ n / d * d ∨ (n / d + 1) * d ≤ y) :
    ((n : Int) - (divNearestEven n d * d : Nat)).natAbs ≤ ((n : Int) - (y : Nat)).natAbs ∧
    (((n : Int) - (divNearestEven n d * d : Nat)).natAbs = ((n : Int) - (y : Nat)).natAbs →
      y = divNearestEven n d * d ∨ divNearestEven n d % 2 = 0) := by
  have hn : n = n / d * d + n % d := by rw [Nat.mul_comm]; exact (Nat.div_add_mod n d).symm
  have hr : n % d < d := Nat.mod_lt n hd
  have hsucc : (n / d + 1) * d = n / d * d + d := Nat.succ_mul _ _
  rw [hsucc] at hy
  simp only [divNearestEven]
  split
  · omega
  · split
    · rw [hsucc]; omega
    · rcases Nat.mod_two_eq_zero_or_one (n / d) with hq | hq
      · rw [hq, Nat.add_zero]; omega
      · rw [hq, hsucc]; omega

theorem magOfBits_inj {a b : Nat} (ha : a ≤ 0x7F800000) (hb : b ≤ 0x7F800000) (h : magOfBits a = magOfBits b) : a = b :=
  Nat.le_antisymm ((magOfBits_le_iff ha hb).1 h.le) ((magOfBits_le_iff hb ha).1 h.ge)

/-- The bits of a quotient's significand and scale, before rounding. -/
def floorBits (n d : Nat) : Nat := scale n d * 2 ^ 23 + n / (d * 2 ^ scale n d)

theorem magOfBits_floorBits (n d : Nat) : magOfBits (floorBits n d) = n / (d * 2 ^ scale n d) * 2 ^ scale n d := by
  rw [floorBits]
  exact magOfBits_scaled quotient_lt.le le_quotient

theorem magOfBits_floorBits_succ (n d : Nat) :
    magOfBits (floorBits n d + 1) = (n / (d * 2 ^ scale n d) + 1) * 2 ^ scale n d := by
  rw [floorBits, Nat.add_assoc]
  exact magOfBits_scaled quotient_lt fun h => (le_quotient h).trans (Nat.le_succ _)

/-- Where the quotient is below 2^128, the bits of the result are the scale and the rounded significand, and they stand
for the significand's multiple of the scale. -/
theorem roundMag_of_floorBits_lt {n d : Nat} (h : floorBits n d < 0x7F800000) :
    roundMag n d = scale n d * 2 ^ 23 + divNearestEven n (d * 2 ^ scale n d) ∧
    magOfBits (roundMag n d) = divNearestEven n (d * 2 ^ scale n d) * 2 ^ scale n d := by
  have hle := divNearestEven_le_succ n (d * 2 ^ scale n d)
  have heq : roundMag n d = scale n d * 2 ^ 23 + divNearestEven n (d * 2 ^ scale n d) := by
    rw [floorBits] at h
    exact Nat.min_eq_left (by omega)
  exact ⟨heq, heq ▸ magOfBits_scaled (hle.trans quotient_lt)
    fun hk => (le_quotient hk).trans (div_le_divNearestEven _ _)⟩

/-- Where the quotient is 2^128 or more, the result is an infinity. -/
theorem roundMag_of_le_floorBits {n d : Nat} (h : 0x7F800000 ≤ floorBits n d) :
    roundMag n d = 0x7F800000 ∧ magOfBits 0x7F800000 * d ≤ n := by
  rw [floorBits] at h
  have hq : n / (d * 2 ^ scale n d) < 2 ^ 24 := quotient_lt
  have hk : 254 ≤ scale n d := by omega
  constructor
  · have := div_le_divNearestEven n (d * 2 ^ scale n d)
    exact Nat.min_eq_right (by omega)
  · calc magOfBits 0x7F800000 * d = 2 ^ 23 * (d * 2 ^ 254) := by
          rw [show magOfBits 0x7F800000 = 2 ^ 23 * 2 ^ 254 by decide]; ring
      _ ≤ n / (d * 2 ^ scale n d) * (d * 2 ^ scale n d) :=
          Nat.mul_le_mul (le_quotient (by omega)) (Nat.mul_le_mul_left d (Nat.pow_le_pow_right (by decide) hk))
      _ ≤ n := Nat.div_mul_le_self _ _

/-- No representable magnitude is nearer to `n / d` than the rounded one, and the rounded bits are even where another is
as near. -/
theorem roundMag_nearest {n d m : Nat} (hd : 0 < d) (hm : m ≤ 0x7F800000) :
    ((n : Int) - (magOfBits (roundMag n d) * d : Nat)).natAbs ≤ ((n : Int) - (magOfBits m * d : Nat)).natAbs ∧
    (((n : Int) - (magOfBits (roundMag n d) * d : Nat)).natAbs = ((n : Int) - (magOfBits m * d : Nat)).natAbs →
      m = roundMag n d ∨ roundMag n d % 2 = 0) := by
  rcases Nat.lt_or_ge (floorBits n d) 0x7F800000 with hlt | hge
  · obtain ⟨hbits, hmag⟩ := roundMag_of_floorBits_lt hlt
    have hscale : ∀ x : Nat, x * (d * 2 ^ scale n d) = x * 2 ^ scale n d * d := fun x => by ring
    have hgap : magOfBits m * d ≤ n / (d * 2 ^ scale n d) * (d * 2 ^ scale n d) ∨
        (n / (d * 2 ^ scale n d) + 1) * (d * 2 ^ scale n d) ≤ magOfBits m * d := by
      rw [hscale, hscale, ← magOfBits_floorBits, ← magOfBits_floorBits_succ]
      rcases Nat.lt_or_ge (floorBits n d) m with h | h
      · exact .inr (Nat.mul_le_mul_right d ((magOfBits_le_iff hlt hm).2 h))
      · exact .inl (Nat.mul_le_mul_right d ((magOfBits_le_iff hm hlt.le).2 h))
    obtain ⟨hle, htie⟩ := divNearestEven_nearest (Nat.mul_pos hd (Nat.two_pow_pos _)) hgap
    rw [hscale, ← hmag] at hle htie
    refine ⟨hle, fun e => (htie e).imp (fun he => ?_) (fun he => ?_)⟩
    · exact magOfBits_inj hm (roundMag_le_inf n d) (Nat.eq_of_mul_eq_mul_right hd he)
    · omega
  · obtain ⟨hbits, hn⟩ := roundMag_of_le_floorBits hge
    have hy : magOfBits m * d ≤ magOfBits 0x7F800000 * d :=
      Nat.mul_le_mul_right d ((magOfBits_le_iff hm (Nat.le_refl _)).2 hm)
    rw [hbits]
    generalize magOfBits 0x7F800000 * d = top at hn hy
    exact ⟨by omega, fun _ => .inr (by decide)⟩

/-! ## Words -/

/-- `r` is a word nearest to the exact value `x / d`, and an even one where another value is as near. -/
def IsNearestEven (x d : Int) (r : Word) : Prop :=
  ∀ w : Word, isNaN w = false →
    (x - val r * d).natAbs ≤ (x - val w * d).natAbs ∧
    ((x - val r * d).natAbs = (x - val w * d).natAbs → val w = val r ∨ r.toNat % 2 = 0)

theorem round_toNat_mod_two (s : Bool) (n d : Nat) : (round s n d).toNat % 2 = roundMag n d % 2 := by
  have := bits_pack (roundMag_lt n d) s
  rw [round]
  omega

theorem val_round (s : Bool) (n d : Nat) : val (round s n d) = signed s (magOfBits (roundMag n d)) := by
  rw [val_eq_signed, sign_round, mag_round]

/-- Rounding to a word answers a nearest value. A word of the other sign is no nearer than zero. -/
theorem round_isNearestEven (s : Bool) (n : Nat) {d : Nat} (hd : 0 < d) :
    IsNearestEven (signed s n) (d : Int) (round s n d) := by
  intro w hw
  rw [val_round, val_eq_signed w, round_toNat_mod_two, signed_mul_natCast, signed_mul_natCast, natAbs_signed_sub_signed]
  by_cases hs : sign w = s
  · obtain ⟨hle, htie⟩ := roundMag_nearest (n := n) hd (bits_le_of_not_nan hw)
    rw [hs, natAbs_signed_sub_signed]
    exact ⟨hle, fun e => (htie e).imp_left fun h => by rw [mag, h]⟩
  · obtain ⟨hle, htie⟩ := roundMag_nearest (n := n) (m := 0) hd (by decide)
    have h0 : magOfBits 0 * d = 0 := by rw [show magOfBits 0 = 0 from rfl, Nat.zero_mul]
    rw [h0] at hle htie
    rw [show sign w = !s by rw [Bool.eq_not]; exact hs, natAbs_signed_sub_signed_not]
    refine ⟨by omega, fun e => .inr ?_⟩
    rcases htie (by omega) with h | h
    · rw [← h]
    · exact h

/-- An exact result is as near as can be, and any other as near has its value. -/
theorem isNearestEven_of_val_eq {x : Int} {r : Word} (hx : val r = x) : IsNearestEven x 1 r := by
  intro w _
  rw [hx]
  exact ⟨by omega, fun h => .inl (by omega)⟩

/-- Both sides of the quotient may change sign. -/
theorem IsNearestEven.neg {x d : Int} {r : Word} (h : IsNearestEven x d r) : IsNearestEven (-x) (-d) r := by
  intro w hw
  have e : ∀ v : Int, (-x - v * -d).natAbs = (x - v * d).natAbs := fun v => by
    rw [← Int.natAbs_neg]; congr 1; ring
  rw [e, e]
  exact h w hw

/-- The sign of the divisor may move from the exact result to the divisor. -/
theorem IsNearestEven.divisor_signed {s t : Bool} {n d : Nat} {r : Word}
    (h : IsNearestEven (signed (s != t) n) (d : Int) r) :
    IsNearestEven (signed s n) (signed t d) r := by
  cases t
  · rwa [Bool.bne_false] at h
  · rw [Bool.bne_true, signed_not] at h
    rw [← Int.neg_neg (signed s n)]
    exact h.neg

/-! ## Operations on finite operands -/

section
variable {a b : Word} (ha : isFinite a = true) (hb : isFinite b = true) (nan : Word)
include ha hb

theorem add_of_isFinite : add nan a b =
    if val a + val b = 0 then (if sign a && sign b then negZero else zero)
    else round (decide (val a + val b < 0)) (val a + val b).natAbs 1 := by
  simp [add, isNaN_of_isFinite ha, isNaN_of_isFinite hb, isInf_of_isFinite ha, isInf_of_isFinite hb]

theorem mul_of_isFinite : mul nan a b = round (sign a != sign b) (mag a * mag b) unit := by
  simp [mul, isNaN_of_isFinite ha, isNaN_of_isFinite hb, isInf_of_isFinite ha, isInf_of_isFinite hb]

theorem div_of_isFinite (h0 : isZero b = false) : div nan a b = round (sign a != sign b) (mag a * unit) (mag b) := by
  simp [div, isNaN_of_isFinite ha, isNaN_of_isFinite hb, isInf_of_isFinite ha, isInf_of_isFinite hb, h0]

theorem add_isNearestEven : IsNearestEven (val a + val b) 1 (add nan a b) := by
  rw [add_of_isFinite ha hb]
  split
  · next h0 =>
    rw [h0]
    split
    · exact isNearestEven_of_val_eq (by decide)
    · exact isNearestEven_of_val_eq (by decide)
  · have h := round_isNearestEven (decide (val a + val b < 0)) (val a + val b).natAbs Nat.one_pos
    rwa [signed_natAbs] at h

theorem sub_isNearestEven : IsNearestEven (val a - val b) 1 (sub nan a b) := by
  rw [Int.sub_eq_add_neg, ← val_neg]
  exact add_isNearestEven ha (by rwa [isFinite_neg]) nan

theorem mul_isNearestEven : IsNearestEven (val a * val b) (unit : Nat) (mul nan a b) := by
  rw [mul_of_isFinite ha hb, val_eq_signed a, val_eq_signed b, signed_mul]
  exact round_isNearestEven _ _ (Nat.two_pow_pos _)

/-- The magnitude of the divisor is the denominator; its sign goes to the quotient. -/
theorem div_isNearestEven (h0 : isZero b = false) : IsNearestEven (val a * (unit : Nat)) (val b) (div nan a b) := by
  rw [div_of_isFinite ha hb nan h0, val_eq_signed a, val_eq_signed b, signed_mul_natCast]
  exact (round_isNearestEven _ _ (mag_pos_of_not_isZero h0)).divisor_signed
end

theorem ofI32_isNearestEven (n : Word) : IsNearestEven (n.toInt * (unit : Nat)) 1 (ofI32 n) := by
  have h := round_isNearestEven (decide (n.toInt < 0)) (n.toInt.natAbs * unit) Nat.one_pos
  rwa [← signed_mul_natCast, signed_natAbs] at h

/-- Settles O55: every operation rounds its exact result, and rounding answers a nearest value. -/
theorem arithmeticRoundsToNearestEven : Obligations.ArithmeticRoundsToNearestEven := by
  have cast : ((unit : Nat) : Int) = 2 ^ 149 := by decide
  refine ⟨fun a b nan w ha hb hw => ⟨?_, ?_, ?_, fun h0 => ?_⟩, fun n w hw => ?_⟩
  · simpa only [Int.mul_one] using add_isNearestEven ha hb nan w hw
  · simpa only [Int.mul_one] using sub_isNearestEven ha hb nan w hw
  · simpa only [cast] using mul_isNearestEven ha hb nan w hw
  · simpa only [cast] using div_isNearestEven ha hb nan h0 w hw
  · simpa only [cast, Int.mul_one] using ofI32_isNearestEven n w hw

end Sys2Proof.F32
end

section
/-! PROOFS. A result that is a number does not depend on the free NaN value (00_scope R11, 93 I1). -/

namespace Sys2Proof.F32

/-- An operation that answers its NaN argument or a fixed word gives every number it gives once with every pattern. -/
theorem eq_of_nan_or {op : Word → Word} (h : (∀ n, op n = n) ∨ ∃ w, ∀ n, op n = w) {nan : Word} (hn : isNaN nan = true)
    (hr : isNaN (op nan) = false) (nan' : Word) : op nan' = op nan := by
  rcases h with hid | ⟨w, hw⟩
  · rw [hid, hn] at hr
    cases hr
  · rw [hw, hw]

/-- Settles O54: no operation looks at its NaN argument. -/
theorem numbersDoNotDependOnTheFreeNaN : Obligations.NumbersDoNotDependOnTheFreeNaN := fun a b _ nan' hn =>
  ⟨fun h => eq_of_nan_or (add_nan_or a b) hn h nan', fun h => eq_of_nan_or (sub_nan_or a b) hn h nan',
    fun h => eq_of_nan_or (mul_nan_or a b) hn h nan', fun h => eq_of_nan_or (div_nan_or a b) hn h nan'⟩

end Sys2Proof.F32
end

section
/-! PROOFS. Power-on refuses exactly the configurations and tables that break 00_scope R7: each Boolean check of the
model is its condition on values. -/

namespace Sys2Proof

/-! ## The conditions (b) to (g) -/

/-- A free word kept within bounds lies within them, where +0.0 does (assumption log 4). -/
theorem Config.within_le {lo hi : Word} (hlo : F32.le lo F32.zero = true) (hhi : F32.le F32.zero hi = true) (w : Word) :
    F32.le lo (Config.within lo hi w) = true ∧ F32.le (Config.within lo hi w) hi = true := by
  rw [Config.within]
  split
  · next h => rwa [Bool.and_eq_true] at h
  · exact ⟨hlo, hhi⟩

namespace Config
variable {c : Config}

theorem deviationOk_iff : c.deviationOk = true ↔
    F32.isNaN c.centreFrequency = false ∧ F32.isNaN c.maxFrequencyDeviation = false ∧
    F32.isNaN c.initDeviation = false ∧ F32.val c.maxFrequencyDeviation ≤ F32.val c.centreFrequency ∧
    0 ≤ F32.val c.initDeviation ∧ F32.val c.initDeviation ≤ F32.val c.maxFrequencyDeviation := by
  rw [deviationOk, Bool.and_eq_true, Bool.and_eq_true, F32.le_iff, F32.zero_le_iff, F32.le_iff]
  tauto

theorem qOk_iff : c.qOk = true ↔
    F32.isNaN c.qConst = false ∧ 0 < F32.val c.qConst ∧ F32.val c.qConst < 2 * 2 ^ 149 := by
  rw [qOk, Bool.and_eq_true, F32.zero_lt_iff, F32.lt_two_iff]
  tauto

theorem rateOk_iff : c.rateOk = true ↔
    F32.isNaN c.initLfoRate = false ∧ F32.isNaN c.maxLfoRate = false ∧ 0 ≤ F32.val c.initLfoRate ∧
    F32.val c.initLfoRate ≤ F32.val c.maxLfoRate ∧ 0 ≤ F32.val c.maxLfoRate := by
  rw [rateOk, Bool.and_eq_true, Bool.and_eq_true, F32.zero_le_iff, F32.le_iff, ← F32.le, F32.zero_le_iff]
  tauto

theorem sampleRateOk_iff : c.sampleRateOk = true ↔ F32.isFinite c.sampleRate = true ∧ 0 < F32.val c.sampleRate := by
  rw [sampleRateOk, Bool.and_eq_true, F32.zero_lt_iff]
  have := F32.isNaN_of_isFinite (w := c.sampleRate)
  tauto

theorem tableShapeOk_iff : c.tableShapeOk = true ↔ c.tableSize = 1024 ∧ c.tableMask = 1023 := by
  rw [tableShapeOk, Bool.and_eq_true, decide_eq_true_iff, decide_eq_true_iff]

/-- A Q_CONST that meets (c) is finite, as the test of (g) asks. -/
theorem isFinite_qConst (h : c.qOk = true) : F32.isFinite c.qConst = true := by
  obtain ⟨-, hpos, hlt⟩ := qOk_iff.1 h
  have htwo : (2 * 2 ^ 149 : Int) = (2 ^ 150 : Nat) := by decide
  rw [htwo] at hlt
  have hle : 2 ^ 150 ≤ F32.overflow := by
    rw [F32.overflow, Nat.pow_le_pow_iff_right (by decide)]
    decide
  exact F32.isFinite_of_val_lt hle hpos hlt

theorem convergenceOk_iff (hq : c.qOk = true) : c.convergenceOk = true ↔
    F32.isFinite c.f1Max = true ∧
    F32.val c.f1Max * F32.val c.f1Max + 2 * (F32.val c.qConst * F32.val c.f1Max) < 4 * (2 ^ 149 * 2 ^ 149) ∧
    F32.val c.qConst * F32.val c.f1Max < 2 * (2 ^ 149 * 2 ^ 149) := by
  rw [convergenceOk, isFinite_qConst hq, Bool.and_true, Bool.and_eq_true, Bool.and_eq_true, decide_eq_true_iff,
    decide_eq_true_iff, and_assoc, show ((F32.unit : Nat) : Int) = 2 ^ 149 by decide]

theorem wellFormed_iff : c.wellFormed = true ↔
    c.deviationOk = true ∧ c.qOk = true ∧ c.rateOk = true ∧ c.sampleRateOk = true ∧ c.tableShapeOk = true ∧
    c.convergenceOk = true := by
  simp only [wellFormed, Bool.and_eq_true, and_assoc]

theorem f1Max_default : Config.default.f1Max = 0x3E9A25C1 := by decide

/-- The defaults meet R7 whatever the OPEN values are. -/
theorem wellFormed_default : Config.default.wellFormed = true := by
  have hdev := within_le (lo := F32.zero) (hi := 0x44898000) (by decide) (by decide) openInitDeviation
  have hrate := within_le (lo := F32.zero) (hi := 0x41A00000) (by decide) (by decide) openInitLfoRate
  refine wellFormed_iff.2 ⟨?_, by decide, ?_, by decide, by decide, by decide⟩
  · have hmax : F32.le Config.default.maxFrequencyDeviation Config.default.centreFrequency = true := by decide
    rw [deviationOk, hmax, Bool.true_and, Bool.and_eq_true]
    exact hdev
  · have hmax : F32.ge Config.default.maxLfoRate F32.zero = true := by decide
    rw [rateOk, hmax, Bool.and_true, Bool.and_eq_true]
    exact hrate

end Config

namespace Machine

/-! ## The table (a) -/

/-- An entry that no cell lists lies in [-1.0, 1.0]. -/
theorem Memory.unlisted_inRange (i : Nat) :
    F32.le 0xBF800000 (Memory.unlisted i) = true ∧ F32.le (Memory.unlisted i) F32.one = true :=
  Config.within_le (by decide) (by decide) _

/-- For a canonical table the check of its cells is R7 (a) of every entry. -/
theorem Memory.inRange_iff {m : Memory} (hm : Memory.wf m = true) : Memory.inRange m = true ↔
    ∀ i, i < 1024 → F32.isNaN (Memory.read m i) = false ∧
      -(2 ^ 149) ≤ F32.val (Memory.read m i) ∧ F32.val (Memory.read m i) ≤ 2 ^ 149 := by
  simp only [Memory.wf, Bool.and_eq_true, List.all_eq_true, decide_eq_true_eq] at hm
  obtain ⟨hrising, hcells⟩ := hm
  simp only [Memory.inRange, List.all_eq_true, ← F32.le_negOne_and_le_one_iff]
  constructor
  · intro h i _
    rcases Memory.read_cases m i with hu | ⟨cell, hmem, hr⟩
    · rw [hu, Bool.and_eq_true]
      exact Memory.unlisted_inRange i
    · rw [hr]
      exact h cell hmem
  · intro h cell hmem
    have hr := h cell.1 (hcells cell hmem).1
    rwa [(Memory.read_listed hrising hmem).1] at hr

/-! ## Power-on -/

theorem powerOn_accepts {c : Config} {t : Memory} (h : c.wellFormed = true ∧ Memory.inRange t = true) :
    powerOn c t = .next (State.boot c t) := by
  rw [← Bool.and_eq_true] at h
  exact if_pos h

theorem powerOn_refuses {c : Config} {t : Memory} (h : ¬(c.wellFormed = true ∧ Memory.inRange t = true)) :
    powerOn c t = .refused .illFormedConfiguration := by
  rw [← Bool.and_eq_true] at h
  exact if_neg h

/-- Power-on accepts exactly what its two checks pass, and keeps the configuration and the table as they are. -/
theorem powerOn_accepts_iff {c : Config} {t : Memory} :
    (∃ s, powerOn c t = .next s ∧ s.cfg = c ∧ s.table = t) ↔ c.wellFormed = true ∧ Memory.inRange t = true := by
  constructor
  · rintro ⟨s, hs, -⟩
    by_contra h
    rw [powerOn_refuses h] at hs
    cases hs
  · exact fun h => ⟨_, powerOn_accepts h, rfl, rfl⟩

/-- Settles O53: the checks of `powerOn` are the conditions of R7, one by one. -/
theorem illFormedConfigurationIsRefused : Obligations.IllFormedConfigurationIsRefused := by
  refine ⟨fun c t => ?_, fun c t ht => ?_, Memory.unlisted_inRange, Config.wellFormed_default, Config.f1Max_default⟩
  · by_cases h : c.wellFormed = true ∧ Memory.inRange t = true
    · exact .inr ⟨_, powerOn_accepts h⟩
    · exact .inl (powerOn_refuses h)
  · rw [powerOn_accepts_iff, Config.wellFormed_iff, and_comm, Memory.inRange_iff ht, ← Config.deviationOk_iff,
      ← Config.qOk_iff, ← Config.rateOk_iff, ← Config.sampleRateOk_iff, ← Config.tableShapeOk_iff]
    refine and_congr_right fun _ => and_congr_right fun _ => and_congr_right fun hq => and_congr_right fun _ =>
      and_congr_right fun _ => and_congr_right fun _ => ?_
    rw [Config.convergenceOk_iff hq]
    exact ⟨fun h _ hf => by rw [hf]; exact h, fun h => h _ rfl⟩

end Machine
end Sys2Proof
end

section
/-! SUPPORT. What a command and a step can do, each said once by cases, and how a property of the state comes to be kept
by every step. -/

namespace Sys2Proof.Machine

/-! ## The meanings -/

/-- What the meaning of a command can do to a state: one case for each way it can end. -/
inductive Effect (i : Instr) (s : State) : State → Prop where
  | unchanged : Effect i s s
  | responds (w : Word) : Effect i s (s.respond w)
  | faults (c : FaultCause) (hc : c ≠ .none) (hm : s.mode ≠ .halted) : Effect i s (s.raiseFault c)
  | initialises (p a : Word) (hi : i = .init p a) (hm : s.mode ≠ .halted) : Effect i s s.initialise
  | setsTime (raw : Word) (hi : i = .setParamTime raw) (hm : s.mode = .ready) (hr : rawNegative raw = false) :
      Effect i s (s.setTime raw)
  | setsDepth (raw : Word) (hi : i = .setParamDepth raw) (hm : s.mode = .ready) (hr : rawNegative raw = false) :
      Effect i s (s.setDepth raw)
  | processes (frames : Word) (hi : i = .process frames) (hm : s.mode = .ready) :
      Effect i s ({ s with framesLeft := frames } : State).continueProcess

/-- Behind the lifecycle guard only what the command does in READY is left to show. -/
theorem Effect.of_whenReady {i : Instr} {s run t : State} (h : s.whenReady run = .next t)
    (hrun : s.mode = .ready → Effect i s run) : Effect i s t := by
  rcases State.whenReady_cases h with ⟨-, rfl⟩ | ⟨hm, rfl⟩ | ⟨hm, rfl⟩
  · exact .unchanged
  · exact .faults _ (by decide) (by simp [hm])
  · exact hrun hm

theorem State.ne_halted_of_ready {s : State} (h : s.mode = .ready) : s.mode ≠ .halted := by simp [h]

theorem exec_effect {i : Instr} {s t : State} (h : exec i s = .next t) : Effect i s t := by
  cases i with
  | init p a =>
    rcases execInit_cases (p := p) (a := a) h with ⟨-, rfl⟩ | ⟨hm, rfl⟩
    · exact .unchanged
    · exact .initialises p a rfl hm
  | setParamTime raw =>
    refine .of_whenReady h fun hm => ?_
    split
    · exact .faults _ (by decide) (State.ne_halted_of_ready hm)
    · next hr => exact .setsTime raw rfl hm (by simpa using hr)
  | setParamDepth raw =>
    refine .of_whenReady h fun hm => ?_
    split
    · exact .faults _ (by decide) (State.ne_halted_of_ready hm)
    · next hr => exact .setsDepth raw rfl hm (by simpa using hr)
  | setParamNone pidx raw => exact .of_whenReady h fun _ => .unchanged
  | process frames => exact .of_whenReady h fun hm => .processes frames rfl hm
  | readReg reg =>
    by_cases hs : reg = .status
    · subst hs
      injection h with h
      exact h ▸ .responds _
    · refine .of_whenReady ((if_neg hs).symm.trans h) fun hm => ?_
      rcases s.readNamed_cases reg with ⟨w, -, e⟩ | ⟨-, e⟩
      · exact e ▸ .responds w
      · exact e ▸ .faults _ (by decide) (State.ne_halted_of_ready hm)

/-! ## The step -/

/-- No PROCESS is under way: no frames are left and the host takes every output word (20_memory R55, R60). -/
def State.idle (s : State) : Prop := s.framesLeft = 0 ∧ s.outputTaken = true

/-- In HALTED the core waits, takes READ_REG 0x00 or discards a word (R128). -/
theorem haltedActivity_ne (ws rest : List Word) :
    haltedActivity ws ≠ .resume ∧ haltedActivity ws ≠ .takeIllegal rest := by
  unfold haltedActivity
  split
  · simp
  · split <;> simp

theorem activityOf_ne_resume (d : Fetched) : activityOf d ≠ .resume := by cases d <;> simp [activityOf]

theorem State.framesLeft_of_resume {s : State} (h : s.activity = .resume) : s.framesLeft ≠ 0 := by
  rcases s.activity_cases with ⟨hf, -⟩ | ⟨-, -, e⟩ | ⟨-, -, -, e⟩ | ⟨-, -, -, e⟩
  · exact hf
  · cases e.symm.trans h
  · exact absurd (e.symm.trans h) (haltedActivity_ne _ []).1
  · exact absurd (e.symm.trans h) (activityOf_ne_resume _)

theorem State.idle_of_take {s : State} {i : Instr} {rest : List Word} (h : s.activity = .take i rest) : s.idle := by
  rcases s.activity_cases with ⟨-, e⟩ | ⟨-, -, e⟩ | ⟨hf, ho, -⟩ | ⟨hf, ho, -⟩
  · cases e.symm.trans h
  · cases e.symm.trans h
  · exact ⟨hf, ho⟩
  · exact ⟨hf, ho⟩

theorem State.idle_of_takeIllegal {s : State} {rest : List Word} (h : s.activity = .takeIllegal rest) :
    s.idle ∧ s.mode ≠ .halted := by
  rcases s.activity_cases with ⟨-, e⟩ | ⟨-, -, e⟩ | ⟨-, -, -, e⟩ | ⟨hf, ho, hm, -⟩
  · cases e.symm.trans h
  · cases e.symm.trans h
  · exact absurd (e.symm.trans h) (haltedActivity_ne _ _).2
  · exact ⟨⟨hf, ho⟩, hm⟩

/-- The operations a step is made of: what each keeps, every step keeps. A fault is raised only while no PROCESS is
under way, and frames run only in READY: `resume` asks this of a PROCESS that goes on (42_process R100). -/
structure Kept (P : State → Prop) : Prop where
  took : ∀ s rest, P s → P (s.took rest)
  respond : ∀ s w, P s → P (s.respond w)
  raiseFault : ∀ s c, s.idle → s.mode ≠ .halted → c ≠ .none → P s → P (s.raiseFault c)
  initialise : ∀ s, s.mode ≠ .halted → P s → P s.initialise
  setTime : ∀ s raw, s.mode = .ready → rawNegative raw = false → P s → P (s.setTime raw)
  setDepth : ∀ s raw, s.mode = .ready → rawNegative raw = false → P s → P (s.setDepth raw)
  process : ∀ s frames, s.mode = .ready → P s → P { s with framesLeft := frames }
  resume : ∀ s, s.framesLeft ≠ 0 → P s → s.mode = .ready
  runFrame : ∀ s mL mR sL sR rest, s.mode = .ready → P s → P (s.runFrame mL mR sL sR rest)

variable {P : State → Prop}

theorem Kept.continueProcess (hP : Kept P) {s : State} (hm : s.mode = .ready) (h : P s) : P s.continueProcess :=
  (runFrames_keeps (P := fun u => u.mode = .ready ∧ P u)
    (fun u mL mR sL sR rest _ hu => ⟨by simpa using hu.1, hP.runFrame u mL mR sL sR rest hu.1 hu.2⟩)
    _ s ⟨hm, h⟩).2

theorem Kept.of_exec (hP : Kept P) {i : Instr} {s t : State} (hidle : s.idle) (he : exec i s = .next t) (h : P s) :
    P t := by
  cases exec_effect he with
  | unchanged => exact h
  | responds w => exact hP.respond s w h
  | faults c hc hm => exact hP.raiseFault s c hidle hm hc h
  | initialises p a _ hm => exact hP.initialise s hm h
  | setsTime raw _ hm hr => exact hP.setTime s raw hm hr h
  | setsDepth raw _ hm hr => exact hP.setDepth s raw hm hr h
  | processes frames _ hm => exact hP.continueProcess hm (hP.process s frames hm h)

theorem Kept.of_step (hP : Kept P) {s t : State} (hs : step s = .next t) (h : P s) : P t := by
  rcases step_cases hs with ⟨ha, rfl⟩ | ⟨i, rest, ha, he⟩ | ⟨rest, ha, rfl⟩ | ⟨rest, -, rfl⟩ | ⟨-, rfl⟩
  · exact hP.continueProcess (hP.resume s (State.framesLeft_of_resume ha) h) h
  · have hidle : s.idle := State.idle_of_take ha
    exact hP.of_exec (s := s.took rest) hidle he (hP.took s rest h)
  · obtain ⟨hidle, hm⟩ := State.idle_of_takeIllegal ha
    exact hP.raiseFault _ _ hidle hm (by decide) (hP.took s rest h)
  · exact hP.took s rest h
  · exact h

end Sys2Proof.Machine
end

section
/-! PROOFS. The lifecycle of 10_state R20: what STATUS reports of it, which steps write MODE, and the invariant of every
step. -/

namespace Sys2Proof.Machine

/-! ## STATUS -/

/-- STATUS bits 3:0, DKW, TKW, HALTED and READY (R36). -/
def State.flags (s : State) : BitVec 4 :=
  BitVec.ofBool s.dkw ++ BitVec.ofBool s.tkw ++ BitVec.ofBool s.haltedFlag ++ BitVec.ofBool s.readyFlag

/-- STATUS bit by bit: the flags, the cause code, and zeros (R36). -/
theorem State.status_getLsbD (s : State) (i : Nat) : s.status.getLsbD i =
    if i < 4 then s.flags.getLsbD i else if i < 8 then s.faultCause.code.getLsbD (i - 4) else false := by
  have h : s.status = ((0 : BitVec 24) ++ s.faultCause.code : BitVec (24 + 4)) ++ s.flags := rfl
  rw [h, BitVec.getLsbD_append, BitVec.getLsbD_append]
  by_cases h4 : i < 4
  · simp [h4]
  · have h8 : i - 4 < 4 ↔ i < 8 := by omega
    simp [h4, h8]

theorem State.flags_getLsbD (s : State) :
    s.flags.getLsbD 0 = decide (s.mode = .ready) ∧ s.flags.getLsbD 1 = decide (s.mode = .halted) ∧
    s.flags.getLsbD 2 = s.tkw ∧ s.flags.getLsbD 3 = s.dkw := by
  rw [flags, ← readyFlag, ← haltedFlag]
  cases s.dkw <;> cases s.tkw <;> cases s.haltedFlag <;> cases s.readyFlag <;> decide

theorem State.status_cause (s : State) : s.status.extractLsb' 4 4 = s.faultCause.code := by
  apply BitVec.eq_of_getLsbD_eq
  intro i hi
  have h8 : 4 + i < 8 := by omega
  simp [status_getLsbD, hi, h8]

theorem State.status_high (s : State) : s.status.extractLsb' 8 24 = 0 := by
  apply BitVec.eq_of_getLsbD_eq
  intro i hi
  have h4 : ¬8 + i < 4 := by omega
  simp [status_getLsbD, hi, h4]

theorem FaultCause.code_le (c : FaultCause) : c.code.toNat ≤ 4 := by cases c <;> decide

/-- With no cause recorded and no flag set STATUS is READY's bit alone. -/
theorem State.status_of_clear {s : State} (hc : s.faultCause = .none) (ht : s.tkw = false) (hd : s.dkw = false)
    (hm : s.mode ≠ .halted) : s.status = if s.mode = .ready then 1 else 0 := by
  rw [status, readyFlag, haltedFlag, hc, ht, hd, decide_eq_false hm]
  by_cases hr : s.mode = .ready
  · rw [if_pos hr, decide_eq_true hr]; rfl
  · rw [if_neg hr, decide_eq_false hr]; rfl

/-! ## The invariant, taken apart -/

/-- `State.inv` with its parts named. -/
structure State.Inv (s : State) : Prop where
  cause : s.faultCause = .none ↔ s.mode ≠ .halted
  frames : s.framesLeft = 0 ∨ s.mode = .ready
  output : s.outputTaken = true ∨ s.mode = .ready
  wrap : s.wrap = false
  flags : s.mode ≠ .uninit ∨ (s.tkw = false ∧ s.dkw = false)
  timeKnob : s.tkw = s.timeKnob.isSome
  depthKnob : s.dkw = s.depthKnob.isSome
  config : s.configOk = true
  q : s.mode ≠ .ready ∨ s.q = s.cfg.qConst

theorem State.inv_iff {s : State} : s.inv = true ↔ s.Inv := by
  simp only [inv, lifecycleOk, knobsOk, qOk, Bool.and_eq_true, Bool.or_eq_true, decide_eq_true_eq,
    Bool.not_eq_true', beq_iff_eq]
  constructor
  · rintro ⟨⟨⟨⟨⟨⟨⟨cause, frames⟩, output⟩, wrap⟩, flags⟩, timeKnob, depthKnob⟩, config⟩, q⟩
    exact ⟨cause, frames, output, wrap, flags, timeKnob, depthKnob, config, q⟩
  · rintro ⟨cause, frames, output, wrap, flags, timeKnob, depthKnob, config, q⟩
    exact ⟨⟨⟨⟨⟨⟨⟨cause, frames⟩, output⟩, wrap⟩, flags⟩, timeKnob, depthKnob⟩, config⟩, q⟩

/-- Settles O14: STATUS read bit by bit; the invariant clears the cause and the knob flags in UNINIT, INIT the flags. -/
theorem statusFieldsReportTheLifecycle : Obligations.StatusFieldsReportTheLifecycle := by
  refine ⟨fun s => ?_, fun s => ?_, fun s hm hinv => ?_, fun p a s t hm hc he => ?_⟩
  · obtain ⟨h0, h1, h2, h3⟩ := s.flags_getLsbD
    refine ⟨?_, ?_, ?_, ?_, s.status_cause, s.status_high⟩
    · exact (s.status_getLsbD 0).trans h0
    · exact (s.status_getLsbD 1).trans h1
    · exact (s.status_getLsbD 2).trans h2
    · exact (s.status_getLsbD 3).trans h3
  · rw [s.status_cause]
    refine ⟨?_, ?_, ?_, ?_, ?_, s.faultCause.code_le⟩
    all_goals (intro hc; rw [hc]; rfl)
  · have hi := State.inv_iff.1 hinv
    have hh : s.mode ≠ .halted := by simp [hm]
    obtain ⟨ht, hd⟩ := hi.flags.resolve_left (by simp [hm])
    rw [State.status_of_clear (hi.cause.2 hh) ht hd hh, hm]
    rfl
  · rcases execInit_cases (p := p) (a := a) he with ⟨hh, -⟩ | ⟨-, rfl⟩
    · exact absurd hh hm
    · exact State.status_of_clear (s := s.initialise) hc rfl rfl Mode.noConfusion

/-! ## Which steps write MODE -/

@[simp] theorem State.continueProcess_mode (s : State) : s.continueProcess.mode = s.mode := runFrames_mode _ s

/-- A command keeps MODE, or it is INIT and writes READY, or it raises a fault and writes HALTED. -/
theorem exec_mode {i : Instr} {s t : State} (h : exec i s = .next t) :
    t.mode = s.mode ∨ (t.mode = .ready ∧ ∃ p a, i = .init p a) ∨ (t.mode = .halted ∧ t.faultCause ≠ .none) := by
  cases exec_effect h with
  | unchanged => exact .inl rfl
  | responds w => exact .inl rfl
  | faults c hc _ => exact .inr (.inr ⟨rfl, hc⟩)
  | initialises p a hi _ => exact .inr (.inl ⟨rfl, p, a, hi⟩)
  | setsTime raw _ _ _ => exact .inl rfl
  | setsDepth raw _ _ _ => exact .inl rfl
  | processes frames _ _ => exact .inl (State.continueProcess_mode _)

/-- A step keeps MODE, or it takes INIT and writes READY, or it raises a fault and writes HALTED (R20). -/
theorem step_mode {s t : State} (h : step s = .next t) :
    t.mode = s.mode ∨ (t.mode = .ready ∧ ∃ p a rest, s.activity = .take (.init p a) rest) ∨
    (t.mode = .halted ∧ t.faultCause ≠ .none) := by
  rcases step_cases h with ⟨-, rfl⟩ | ⟨i, rest, ha, he⟩ | ⟨rest, -, rfl⟩ | ⟨rest, -, rfl⟩ | ⟨-, rfl⟩
  · exact .inl s.continueProcess_mode
  · refine (exec_mode he).imp_right (.imp_left ?_)
    rintro ⟨hr, p, a, rfl⟩
    exact ⟨hr, p, a, rest, ha⟩
  · exact .inr (.inr ⟨rfl, FaultCause.noConfusion⟩)
  · exact .inl rfl
  · exact .inl rfl

/-- Settles O25: each of the three values of MODE after a step, by what the step did to it. -/
theorem modeChangesOnlyAsTheLifecycleSays : Obligations.ModeChangesOnlyAsTheLifecycleSays := by
  refine ⟨fun s t h => ?_, fun s => rfl, fun s => ?_⟩
  · rcases step_mode h with hm | ⟨hm, hinit⟩ | ⟨hm, hc⟩
    · rw [hm]
      exact ⟨.inl, .inl, id⟩
    · rw [hm]
      exact ⟨fun _ => .inr hinit, Mode.noConfusion, Mode.noConfusion⟩
    · rw [hm]
      exact ⟨Mode.noConfusion, fun _ => .inr hc, Mode.noConfusion⟩
  · obtain ⟨h0, h1, -⟩ := s.flags_getLsbD
    exact ⟨(s.status_getLsbD 0).trans h0, (s.status_getLsbD 1).trans h1⟩

/-! ## Every step keeps the invariant -/

theorem State.Inv.took {s : State} (h : s.Inv) (rest : List Word) : (s.took rest).Inv :=
  ⟨h.cause, h.frames, h.output, h.wrap, h.flags, h.timeKnob, h.depthKnob, h.config, h.q⟩

theorem State.Inv.respond {s : State} (h : s.Inv) (w : Word) : (s.respond w).Inv :=
  ⟨h.cause, h.frames, h.output, h.wrap, h.flags, h.timeKnob, h.depthKnob, h.config, h.q⟩

/-- Fault entry leaves no PROCESS under way outside READY, because none was when it began. -/
theorem State.Inv.raiseFault {s : State} (h : s.Inv) (hidle : s.idle) {c : FaultCause} (hc : c ≠ .none) :
    (s.raiseFault c).Inv where
  cause := iff_of_false hc (not_not_intro rfl)
  frames := .inl hidle.1
  output := .inl hidle.2
  wrap := h.wrap
  flags := .inl Mode.noConfusion
  timeKnob := h.timeKnob
  depthKnob := h.depthKnob
  config := h.config
  q := .inl Mode.noConfusion

theorem State.Inv.initialise {s : State} (h : s.Inv) (hm : s.mode ≠ .halted) : s.initialise.Inv where
  cause := iff_of_true (h.cause.2 hm) Mode.noConfusion
  frames := .inr rfl
  output := .inr rfl
  wrap := h.wrap
  flags := .inl Mode.noConfusion
  timeKnob := rfl
  depthKnob := rfl
  config := h.config
  q := .inr rfl

theorem State.Inv.setTime {s : State} (h : s.Inv) (hm : s.mode = .ready) (raw : Word) : (s.setTime raw).Inv :=
  ⟨h.cause, h.frames, h.output, h.wrap, .inl (by simp [State.setTime, hm]), rfl, h.depthKnob, h.config, h.q⟩

theorem State.Inv.setDepth {s : State} (h : s.Inv) (hm : s.mode = .ready) (raw : Word) : (s.setDepth raw).Inv :=
  ⟨h.cause, h.frames, h.output, h.wrap, .inl (by simp [State.setDepth, hm]), h.timeKnob, rfl, h.config, h.q⟩

theorem State.Inv.process {s : State} (h : s.Inv) (hm : s.mode = .ready) (frames : Word) :
    State.Inv { s with framesLeft := frames } :=
  ⟨h.cause, .inr hm, h.output, h.wrap, h.flags, h.timeKnob, h.depthKnob, h.config, h.q⟩

/-- A frame writes none of the registers the invariant speaks of but FRAMES_LEFT, WRAP and the output stream. -/
theorem State.Inv.runFrame {s : State} (h : s.Inv) (hm : s.mode = .ready) (mL mR sL sR : Word) (rest : List Word) :
    (s.runFrame mL mR sL sR rest).Inv where
  cause := by simpa using h.cause
  frames := .inr (by simpa using hm)
  output := .inr (by simpa using hm)
  wrap := s.runFrame_wrap mL mR sL sR rest
  flags := by simpa using h.flags
  timeKnob := by simpa using h.timeKnob
  depthKnob := by simpa using h.depthKnob
  config := by simpa [State.configOk] using h.config
  q := by simpa using h.q

theorem inv_kept : Kept State.Inv where
  took _ rest h := h.took rest
  respond _ w h := h.respond w
  raiseFault _ _ hidle _ hc h := h.raiseFault hidle hc
  initialise _ hm h := h.initialise hm
  setTime _ raw hm _ h := h.setTime hm raw
  setDepth _ raw hm _ h := h.setDepth hm raw
  process _ frames hm h := h.process hm frames
  resume _ hf h := h.frames.resolve_left hf
  runFrame _ mL mR sL sR rest hm h := h.runFrame hm mL mR sL sR rest

/-- Settles O49: each operation a step is made of keeps the invariant. -/
theorem lifecycleInvariantIsKept : Obligations.LifecycleInvariantIsKept :=
  fun _ _ hinv hs => State.inv_iff.2 (inv_kept.of_step hs (State.inv_iff.1 hinv))

end Sys2Proof.Machine
end

section
/-! SUPPORT. Ranges of binary32 results: a nearest value stays between any two words its exact value lies between, and
sums of representable values are exact. -/

namespace Sys2Proof.F32

/-! ## A nearest value keeps its bounds -/

theorem IsNearestEven.le_val {x d : Int} {r w : Word} (h : IsNearestEven x d r) (hd : 0 < d) (hw : isNaN w = false)
    (hx : val w * d ≤ x) : val w ≤ val r := by
  by_contra hlt
  have hgap : val r * d < val w * d := mul_lt_mul_of_pos_right (by omega) hd
  have hnear := (h w hw).1
  omega

theorem IsNearestEven.val_le {x d : Int} {r w : Word} (h : IsNearestEven x d r) (hd : 0 < d) (hw : isNaN w = false)
    (hx : x ≤ val w * d) : val r ≤ val w := by
  by_contra hlt
  have hgap : val w * d < val r * d := mul_lt_mul_of_pos_right (by omega) hd
  have hnear := (h w hw).1
  omega

/-- A greater exact value has no smaller a nearest value. -/
theorem IsNearestEven.val_le_val {x x' : Int} {r r' : Word} (h : IsNearestEven x 1 r) (h' : IsNearestEven x' 1 r')
    (hr : isNaN r = false) (hr' : isNaN r' = false) (hx : x < x') : val r ≤ val r' := by
  have hnear := (h r' hr').1
  have hnear' := (h' r hr).1
  omega

/-! ## Finite words between two words -/

theorem val_zero : val zero = 0 := by decide

theorem val_one : val one = (unit : Nat) := by decide

/-- A finite word that lies between two words by value. -/
def Between (lo hi w : Word) : Prop := isFinite w = true ∧ val lo ≤ val w ∧ val w ≤ val hi

theorem between_iff {lo hi w : Word} (hlo : isNaN lo = false) (hhi : isNaN hi = false) :
    (isFinite w && le lo w && le w hi) = true ↔ Between lo hi w := by
  rw [Bool.and_eq_true, Bool.and_eq_true, le_iff, le_iff, and_assoc]
  refine and_congr_right fun hw => ?_
  simp [isNaN_of_isFinite hw, hlo, hhi]

theorem natAbs_val (w : Word) : (val w).natAbs = mag w := by
  rw [val]
  split <;> simp

theorem magOfBits_inf : magOfBits 0x7F800000 = overflow := by
  rw [overflow, show (277 : Nat) = 23 + 254 from rfl, Nat.pow_add]
  rfl

theorem mag_lt_overflow {w : Word} (h : isFinite w = true) : mag w < overflow := by
  have hlt := isFinite_iff.1 h
  rw [← magOfBits_inf, mag, Nat.lt_iff_le_and_not_ge, magOfBits_le_iff hlt.le (by decide),
    magOfBits_le_iff (by decide) hlt.le]
  omega

theorem isFinite_of_val_le {lo hi w : Word} (hlo : isFinite lo = true) (hhi : isFinite hi = true)
    (h1 : val lo ≤ val w) (h2 : val w ≤ val hi) : isFinite w = true := by
  by_contra hf
  have hw := overflow_le_mag (Bool.eq_false_iff.2 hf)
  have hlo := mag_lt_overflow hlo
  have hhi := mag_lt_overflow hhi
  rw [← natAbs_val] at hw hlo hhi
  omega

theorem between_of_val_le {lo hi w : Word} (hlo : isFinite lo = true) (hhi : isFinite hi = true)
    (h1 : val lo ≤ val w) (h2 : val w ≤ val hi) : Between lo hi w := ⟨isFinite_of_val_le hlo hhi h1 h2, h1, h2⟩

/-- Words between two finite ones: the exact value decides where its nearest word lies. -/
theorem IsNearestEven.between {x d : Int} {lo hi r : Word} (h : IsNearestEven x d r) (hd : 0 < d)
    (hlo : isFinite lo = true) (hhi : isFinite hi = true) (h1 : val lo * d ≤ x) (h2 : x ≤ val hi * d) :
    Between lo hi r :=
  between_of_val_le hlo hhi (h.le_val hd (isNaN_of_isFinite hlo) h1) (h.val_le hd (isNaN_of_isFinite hhi) h2)

/-! ## Operations on bounded operands -/

theorem isNaN_add_of_isFinite {a b : Word} (ha : isFinite a = true) (hb : isFinite b = true) (nan : Word) :
    isNaN (add nan a b) = false := by
  rw [add_of_isFinite ha hb]
  split
  · split <;> decide
  · exact isNaN_round _ _ _

/-- A sum depends on the sum of the values alone but for the sign of a zero, and rises with it. -/
theorem val_add_mono {a b a' b' : Word} (ha : isFinite a = true) (hb : isFinite b = true) (ha' : isFinite a' = true)
    (hb' : isFinite b' = true) (nan nan' : Word) (h : val a + val b ≤ val a' + val b') :
    val (add nan a b) ≤ val (add nan' a' b') := by
  rcases Int.lt_or_eq_of_le h with hlt | heq
  · exact (add_isNearestEven ha hb nan).val_le_val (add_isNearestEven ha' hb' nan')
      (isNaN_add_of_isFinite ha hb nan) (isNaN_add_of_isFinite ha' hb' nan') hlt
  · have hzero : ∀ s : Bool, val (if s then negZero else zero) = 0 := by decide
    rw [add_of_isFinite ha hb, add_of_isFinite ha' hb', heq]
    split
    · rw [hzero, hzero]
    · exact le_refl _

/-- A word scaled by a value of [-1, 1] stays within its own magnitude. -/
theorem mul_between_neg {v a : Word} (ha : isFinite a = true) (hpos : 0 ≤ val a) (hv : Between 0xBF800000 one v)
    (nan : Word) : Between (neg a) a (mul nan v a) := by
  obtain ⟨hf, h1, h2⟩ := hv
  rw [show val 0xBF800000 = -(unit : Int) by decide] at h1
  rw [val_one] at h2
  refine (mul_isNearestEven hf ha nan).between (by decide) (by rwa [isFinite_neg]) ha ?_ ?_
  · rw [val_neg]; nlinarith
  · nlinarith

/-- A word scaled by a value of [0, 1] stays between 0 and itself. -/
theorem mul_between_zero {v a : Word} (ha : isFinite a = true) (hpos : 0 ≤ val a) (hv : Between zero one v)
    (nan : Word) : Between zero a (mul nan v a) := by
  obtain ⟨hf, h1, h2⟩ := hv
  rw [val_zero] at h1
  rw [val_one] at h2
  refine (mul_isNearestEven hf ha nan).between (by decide) (by decide) ha ?_ ?_
  · rw [val_zero, Int.zero_mul]
    exact Int.mul_nonneg h1 hpos
  · nlinarith

theorem mul_comm_of_isFinite {a b : Word} (ha : isFinite a = true) (hb : isFinite b = true) (nan : Word) :
    mul nan a b = mul nan b a := by
  rw [mul_of_isFinite ha hb, mul_of_isFinite hb ha, Nat.mul_comm, bne_comm]

/-- A word divided by a value of at least 1 stays between 0 and itself. -/
theorem div_between_zero {a b : Word} (ha : isFinite a = true) (hpos : 0 ≤ val a) (hb : isFinite b = true)
    (h1 : val one ≤ val b) (nan : Word) : Between zero a (div nan a b) := by
  rw [val_one] at h1
  have hb0 : 0 < val b := lt_of_lt_of_le (by decide) h1
  have hz : isZero b = false := by
    by_contra h
    have h0 : b.toNat % 2 ^ 31 = 0 := by simpa [isZero] using h
    rw [val, mag, h0] at hb0
    split at hb0 <;> exact absurd hb0 (by decide)
  refine (div_isNearestEven ha hb nan hz).between hb0 (by decide) ha ?_ ?_
  · rw [val_zero, Int.zero_mul]
    exact Int.mul_nonneg hpos (by decide)
  · exact mul_le_mul_of_nonneg_left h1 hpos

/-! ## A finite result has finite operands -/

theorem isFinite_infOf (s : Bool) : isFinite (infOf s) = false := by cases s <;> decide

theorem isFinite_of_not {w : Word} (hn : isNaN w = false) (hi : isInf w = false) : isFinite w = true := by
  by_contra hf
  have he : expo w = 255 := by simpa [isFinite] using hf
  simp_all [isNaN, isInf]

theorem isFinite_false_of_isNaN {w : Word} (h : isNaN w = true) : isFinite w = false := by
  by_contra hf
  rw [isNaN_of_isFinite (by simpa using hf)] at h
  cases h

theorem isFinite_false_of_isInf {w : Word} (h : isInf w = true) : isFinite w = false := by
  by_contra hf
  rw [isInf_of_isFinite (by simpa using hf)] at h
  cases h

section
variable {nan a b : Word} (hn : isNaN nan = true)
include hn

theorem isFinite_of_add (h : isFinite (add nan a b) = true) : isFinite a = true ∧ isFinite b = true := by
  have hnf := isFinite_false_of_isNaN hn
  rw [add] at h
  split at h
  · rw [hnf] at h; cases h
  next hnan =>
    obtain ⟨hna, hnb⟩ : isNaN a = false ∧ isNaN b = false := by simpa using hnan
    by_cases hia : isInf a = true
    · simp [hia, apply_ite isFinite, hnf, isFinite_false_of_isInf hia] at h
    · by_cases hib : isInf b = true
      · simp [hia, hib, isFinite_false_of_isInf hib] at h
      · exact ⟨isFinite_of_not hna (by simpa using hia), isFinite_of_not hnb (by simpa using hib)⟩

theorem isFinite_of_mul (h : isFinite (mul nan a b) = true) : isFinite a = true ∧ isFinite b = true := by
  obtain ⟨⟨hna, hnb⟩, hia, hib, -⟩ : (isNaN a = false ∧ isNaN b = false) ∧ isInf a = false ∧ isInf b = false ∧ _ := by
    simpa [mul, apply_ite isFinite, isFinite_false_of_isNaN hn, isFinite_infOf] using h
  exact ⟨isFinite_of_not hna hia, isFinite_of_not hnb hib⟩

theorem isFinite_of_div (h : isFinite (div nan a b) = true) : isFinite a = true := by
  obtain ⟨⟨hna, -⟩, hia, -⟩ : (isNaN a = false ∧ isNaN b = false) ∧ isInf a = false ∧ _ := by
    simpa [div, apply_ite isFinite, isFinite_false_of_isNaN hn, isFinite_infOf] using h
  exact isFinite_of_not hna hia
end

/-! ## Exact results -/

/-- The magnitudes that binary32 holds, infinity's with them. -/
def Representable (n : Nat) : Prop := ∃ m, m ≤ 0x7F800000 ∧ magOfBits m = n

/-- At most 24 significant bits at an exponent in range are representable: a short significand is doubled, with the
exponent one less, until it is normal or the exponent is 0. -/
theorem representable_mul_two_pow {x k : Nat} (hx : x ≤ 2 ^ 24) (hk : k ≤ 253) : Representable (x * 2 ^ k) := by
  induction k generalizing x with
  | zero => exact ⟨0 * 2 ^ 23 + x, by omega, magOfBits_scaled hx fun h => absurd rfl h⟩
  | succ k ih =>
    rcases Nat.lt_or_ge x (2 ^ 23) with hlt | hge
    · rw [Nat.pow_succ', ← Nat.mul_assoc]
      exact ih (by omega) (by omega)
    · exact ⟨(k + 1) * 2 ^ 23 + x, by omega, magOfBits_scaled hx fun _ => hge⟩

/-- A finite word's magnitude is a significand of at most 24 bits, scaled. -/
theorem mag_eq_mul_two_pow {w : Word} (h : isFinite w = true) : ∃ x k, x < 2 ^ 24 ∧ k ≤ 253 ∧ mag w = x * 2 ^ k := by
  have hlt := isFinite_iff.1 h
  rw [mag, magOfBits]
  split
  · exact ⟨_, 0, by omega, by omega, (Nat.mul_one _).symm⟩
  · exact ⟨_, _, by omega, by omega, rfl⟩

theorem mul_two_pow_mod_two_pow (x k p : Nat) : x * 2 ^ k % 2 ^ p = x % 2 ^ (p - k) * 2 ^ k := by
  rcases Nat.le_total k p with h | h
  · rw [← Nat.mul_mod_mul_right, ← Nat.pow_add, Nat.sub_add_cancel h]
  · rw [Nat.sub_eq_zero_of_le h, Nat.pow_zero, Nat.mod_one, Nat.zero_mul]
    exact Nat.mod_eq_zero_of_dvd (Dvd.dvd.mul_left (Nat.pow_dvd_pow 2 h) x)

/-- The fraction and the integral part of a finite word's magnitude are representable. -/
theorem representable_mag_mod_unit {w : Word} (h : isFinite w = true) :
    Representable (mag w % unit) ∧ Representable (mag w / unit * unit) := by
  obtain ⟨x, k, hx, hk, e⟩ := mag_eq_mul_two_pow h
  have hmod : mag w % unit = x % 2 ^ (149 - k) * 2 ^ k := by rw [e, mul_two_pow_mod_two_pow]
  have hle := Nat.mod_le x (2 ^ (149 - k))
  constructor
  · rw [hmod]
    exact representable_mul_two_pow (by omega) hk
  · rw [Nat.div_mul_self_eq_mod_sub_self, hmod, e, ← Nat.sub_mul]
    exact representable_mul_two_pow (by omega) hk

theorem mag_round_of_representable {n : Nat} (h : Representable n) (s : Bool) : mag (round s n 1) = n := by
  obtain ⟨m, hm, rfl⟩ := h
  rw [mag_round, roundMag_magOfBits hm]

/-- A representable sum is exact. -/
theorem val_add_of_representable {a b : Word} (ha : isFinite a = true) (hb : isFinite b = true)
    (h : Representable (val a + val b).natAbs) (nan : Word) : val (add nan a b) = val a + val b := by
  rw [add_of_isFinite ha hb]
  split
  · next h0 => rw [h0]; split <;> decide
  · rw [val_eq_signed, sign_round, mag_round_of_representable h, signed_natAbs]

/-! ## Words that are not negative -/

/-- A sum that is not negative has a clear sign bit where one of its operands has. -/
theorem sign_add_eq_false {a b : Word} (ha : isFinite a = true) (hb : isFinite b = true) (hs : sign a = false)
    (hv : 0 ≤ val a + val b) (nan : Word) : sign (add nan a b) = false := by
  rw [add_of_isFinite ha hb]
  split
  · rw [hs, Bool.false_and]; decide
  · rw [sign_round, decide_eq_false_iff_not]
    exact Int.not_lt.2 hv

theorem sign_eq_false_iff {w : Word} : sign w = false ↔ w.toNat < 2 ^ 31 := by
  rw [sign, decide_eq_false_iff_not, Nat.not_le]

theorem val_eq_mag {w : Word} (h : sign w = false) : val w = mag w := by simp [val, h]

/-- Below the sign bit, words are ordered as their bits. -/
theorem val_le_val_iff {v w : Word} (hv : v.toNat ≤ 0x7F800000) (hw : w.toNat ≤ 0x7F800000) :
    val v ≤ val w ↔ v.toNat ≤ w.toNat := by
  rw [val_eq_mag (sign_eq_false_iff.2 (by omega)), val_eq_mag (sign_eq_false_iff.2 (by omega)), Int.ofNat_le, mag, mag,
    Nat.mod_eq_of_lt (by omega), Nat.mod_eq_of_lt (by omega), magOfBits_le_iff hv hw]

theorem isFinite_of_toNat_lt {w : Word} (h : w.toNat < 0x7F800000) : isFinite w = true := isFinite_iff.2 (by omega)

theorem toNat_lt_of_isFinite {w : Word} (hs : sign w = false) (h : isFinite w = true) : w.toNat < 0x7F800000 := by
  have hlt := isFinite_iff.1 h
  rw [sign_eq_false_iff] at hs
  omega

/-- For a finite word with a clear sign bit `fge` with 1.0 compares the bits. -/
theorem ge_one_iff {w : Word} (h : w.toNat < 0x7F800000) : ge w one = true ↔ 0x3F800000 ≤ w.toNat := by
  rw [ge_iff, isNaN_of_isFinite (isFinite_of_toNat_lt h), val_le_val_iff (by decide) h.le]
  exact ⟨fun hge => hge.2.2, fun hge => ⟨rfl, by decide, hge⟩⟩

/-- A magnitude below 1.0 has its bits below those of 1.0. -/
theorem toNat_lt_one {w : Word} (hs : sign w = false) (h : mag w < unit) : w.toNat < 0x3F800000 := by
  have hlt : val w < val one := by
    rw [val_eq_mag hs, val_one]
    exact Int.ofNat_lt.2 h
  have hf : isFinite w = true := by
    refine isFinite_of_val_le (lo := zero) (hi := one) (by decide) (by decide) ?_ hlt.le
    rw [val_eq_mag hs]
    exact Int.natCast_nonneg _
  rw [← Int.not_le, val_le_val_iff (by decide) (toNat_lt_of_isFinite hs hf).le] at hlt
  exact Nat.lt_of_not_le hlt

/-- 0x7F7FFFFF is the greatest finite word. -/
theorem val_le_top {w : Word} (h : isFinite w = true) : val w ≤ val 0x7F7FFFFF := by
  have hlt := isFinite_iff.1 h
  have hle : mag w ≤ mag 0x7F7FFFFF := (magOfBits_le_iff hlt.le (by decide)).2 (Nat.le_of_lt_succ hlt)
  have hneg : val w ≤ mag w := by rw [← natAbs_val]; omega
  rw [val_eq_mag (w := 0x7F7FFFFF) (by decide)]
  omega

/-- An exact value at most 1.0 above the greatest finite word has a finite nearest word. -/
theorem IsNearestEven.isFinite_of_le {x : Int} {r : Word} (h : IsNearestEven x 1 r) (hs : sign r = false)
    (hx : x ≤ val 0x7F7FFFFF + val one) : isFinite r = true := by
  by_contra hf
  have hmag := overflow_le_mag (Bool.eq_false_iff.2 hf)
  have hnear := (h 0x7F7FFFFF (by decide)).1
  have hgap : val 0x7F7FFFFF + 2 * val one < (overflow : Int) := by rw [← magOfBits_inf]; decide
  have hone : 0 < val one := by decide
  rw [val_eq_mag hs] at hnear
  omega

/-! ## The fraction of a word -/

section
variable {w : Word} (h1 : 0x3F800000 ≤ w.toNat) (h2 : w.toNat < 0x7F800000)
include h1 h2

/-- `ffloor` is exact: it clears the fraction. -/
theorem floor_exact : sign (floor w) = false ∧ mag (floor w) = mag w / unit * unit := by
  have hf := isFinite_of_toNat_lt h2
  have hz : isZero w = false := decide_eq_false (by omega)
  have hs : sign w = false := sign_eq_false_iff.2 (by omega)
  have e : floor w = round false (mag w / unit * unit) 1 := by simp [floor, hf, hz, hs]
  rw [e]
  exact ⟨sign_round _ _ _, mag_round_of_representable (representable_mag_mod_unit hf).2 _⟩

/-- A word less its floor is exactly its fraction, with a clear sign bit, and so below 1.0. -/
theorem sub_floor_exact (nan : Word) :
    (sub nan w (floor w)).toNat < 0x3F800000 ∧ mag (sub nan w (floor w)) = mag w % unit := by
  have hf := isFinite_of_toNat_lt h2
  have hs : sign w = false := sign_eq_false_iff.2 (by omega)
  obtain ⟨hfs, hfm⟩ := floor_exact h1 h2
  have hdiv := Nat.div_add_mod' (mag w) unit
  have hfloor : isFinite (neg (floor w)) = true := by
    rw [isFinite_neg]
    refine isFinite_of_val_le (lo := zero) (hi := w) (by decide) hf ?_ ?_
    · rw [val_eq_mag hfs]; exact Int.natCast_nonneg _
    · rw [val_eq_mag hfs, val_eq_mag hs]; omega
  have hv : val w + val (neg (floor w)) = (mag w % unit : Nat) := by
    rw [val_neg, val_eq_mag hfs, val_eq_mag hs]; omega
  have hsign := sign_add_eq_false hf hfloor hs (by rw [hv]; exact Int.natCast_nonneg _) nan
  have hval := val_add_of_representable hf hfloor (by rw [hv]; exact (representable_mag_mod_unit hf).1) nan
  rw [hv, val_eq_mag hsign, Int.natCast_inj] at hval
  exact ⟨toNat_lt_one hsign (hval ▸ Nat.mod_lt _ (by decide)), hval⟩
end

end Sys2Proof.F32
end

section
/-! SUPPORT. What an ordinary configuration bounds, and what SET_PARAM and one frame do to PHASE, RATE, EFFECT_DEPTH and
F within those bounds (10_state R41). -/

namespace Sys2Proof

/-! ## The configuration -/

/-- What an ordinary configuration says of its values. -/
structure Config.Bounds (c : Config) : Prop where
  sampleRate : F32.isFinite c.sampleRate = true
  one_le_sampleRate : F32.val F32.one ≤ F32.val c.sampleRate
  centre : F32.isFinite c.centreFrequency = true
  deviation : F32.isFinite c.maxFrequencyDeviation = true
  deviation_nonneg : 0 ≤ F32.val c.maxFrequencyDeviation
  maxRate : F32.isFinite c.maxLfoRate = true
  maxRate_nonneg : 0 ≤ F32.val c.maxLfoRate
  fMin : F32.isFinite c.fMin = true
  fMax : F32.isFinite c.fMax = true
  initRate : F32.Between F32.zero c.maxLfoRate c.initLfoRate
  initDeviation : F32.Between F32.zero c.maxFrequencyDeviation c.initDeviation

/-- A finite `F1max` (R7 g) leaves no infinity in the greatest reachable F, nor in what it is the sum of. -/
theorem Config.isFinite_fMax {c : Config} (h : c.convergenceOk = true) : F32.isFinite c.fMax = true ∧
    F32.isFinite c.centreFrequency = true ∧ F32.isFinite c.maxFrequencyDeviation = true := by
  have hn : F32.isNaN 0x7FC00000 = true := by decide
  simp only [convergenceOk, Bool.and_eq_true] at h
  obtain ⟨⟨⟨hf1, -⟩, -⟩, -⟩ := h
  have hmax : F32.isFinite c.fMax = true := (F32.isFinite_of_mul hn (F32.isFinite_of_div hn hf1)).2
  exact ⟨hmax, F32.isFinite_of_add hn hmax⟩

theorem Config.bounds_of_ordinary {c : Config} (h : c.ordinary = true) : c.Bounds := by
  have hzero := F32.val_zero
  simp only [ordinary, Bool.and_eq_true] at h
  obtain ⟨⟨⟨hwf, hmaxRate⟩, hsample⟩, -⟩ := h
  obtain ⟨hdev, -, hrate, hsr, -, hconv⟩ := wellFormed_iff.1 hwf
  obtain ⟨-, -, -, hdc, h0d, hdd⟩ := deviationOk_iff.1 hdev
  obtain ⟨-, -, h0r, hrr, h0m⟩ := rateOk_iff.1 hrate
  obtain ⟨hfMax, hcentre, hdeviation⟩ := isFinite_fMax hconv
  have hfMin : F32.Between F32.zero c.centreFrequency c.fMin := by
    refine (F32.sub_isNearestEven hcentre hdeviation _).between (by decide) (by decide) hcentre ?_ ?_ <;> omega
  exact {
    sampleRate := (sampleRateOk_iff.1 hsr).1
    one_le_sampleRate := (F32.ge_iff.1 hsample).2.2
    centre := hcentre
    deviation := hdeviation
    deviation_nonneg := h0d.trans hdd
    maxRate := hmaxRate
    maxRate_nonneg := h0m
    fMin := hfMin.1
    fMax := hfMax
    initRate := F32.between_of_val_le (by decide) hmaxRate h0r hrr
    initDeviation := F32.between_of_val_le (by decide) hdeviation h0d hdd }

/-- A frequency lies in the sweep where it is finite and within the two ends. -/
theorem Config.inSweep_iff {c : Config} (h : c.Bounds) (f : Word) :
    c.inSweep f = true ↔ F32.Between c.fMin c.fMax f :=
  F32.between_iff (F32.isNaN_of_isFinite h.fMin) (F32.isNaN_of_isFinite h.fMax)

/-- Centre and a part of the deviation give a frequency in the sweep: the rounded sum rises with the exact one. -/
theorem Config.inSweep_add {c : Config} (h : c.Bounds) {m : Word} (hm : F32.isFinite m = true)
    (hlo : -F32.val c.maxFrequencyDeviation ≤ F32.val m) (hhi : F32.val m ≤ F32.val c.maxFrequencyDeviation)
    (nan : Word) : c.inSweep (F32.add nan c.centreFrequency m) = true := by
  have hneg : F32.isFinite (F32.neg c.maxFrequencyDeviation) = true := by rw [F32.isFinite_neg]; exact h.deviation
  refine (inSweep_iff h _).2 (F32.between_of_val_le h.fMin h.fMax ?_ ?_)
  · refine F32.val_add_mono h.centre hneg h.centre hm _ _ ?_
    rw [F32.val_neg]
    omega
  · exact F32.val_add_mono h.centre hm h.centre h.deviation _ _ (by omega)

namespace Machine

/-! ## The table -/

/-- Every entry of a table that meets R7 (a) lies in [-1.0, 1.0], listed or not. -/
theorem Memory.read_between {m : Memory} (h : Memory.inRange m = true) (i : Nat) :
    F32.Between 0xBF800000 F32.one (Memory.read m i) := by
  have hi : (F32.le 0xBF800000 (Memory.read m i) && F32.le (Memory.read m i) F32.one) = true := by
    rcases Memory.read_cases m i with hu | ⟨cell, hmem, hr⟩
    · rw [hu, Bool.and_eq_true]
      exact Memory.unlisted_inRange i
    · rw [hr]
      exact List.all_eq_true.1 h cell hmem
  rw [Bool.and_eq_true, F32.le_iff, F32.le_iff] at hi
  obtain ⟨⟨-, -, hlo⟩, -, -, hhi⟩ := hi
  exact F32.between_of_val_le (by decide) (by decide) hlo hhi

/-! ## The parameters -/

/-- A raw value with bit 31 clear converts to a value of [0.0, 1.0] (43_parameters R108). -/
theorem rawToUnit_between {raw : Word} (h : rawNegative raw = false) (nan : Word) :
    F32.Between F32.zero F32.one (rawToUnit nan raw) := by
  have hlt : raw.toNat < 2 ^ 31 := by simpa [rawNegative] using h
  have htoInt : raw.toInt = raw.toNat := by rw [BitVec.toInt_eq_toNat_of_lt (by omega)]
  have hint : F32.Between F32.zero 0x4F000000 (F32.ofI32 raw) := by
    have htop : F32.val 0x4F000000 = 2 ^ 31 * (F32.unit : Int) := by decide
    refine (F32.ofI32_isNearestEven raw).between (by decide) (by decide) (by decide) ?_ ?_
    · rw [htoInt, F32.val_zero, Int.zero_mul]
      exact Int.mul_nonneg (Int.natCast_nonneg _) (by decide)
    · have hle : (raw.toNat : Int) ≤ 2 ^ 31 := by omega
      rw [htoInt, htop, Int.mul_one]
      exact mul_le_mul_of_nonneg_right hle (by decide)
  obtain ⟨hf, h0, h1⟩ := hint
  have hscale : F32.val F32.twoPowNeg31 * F32.val 0x4F000000 = F32.val F32.one * (F32.unit : Int) := by decide
  have hpos : 0 < F32.val F32.twoPowNeg31 := by decide
  rw [F32.val_zero] at h0
  refine (F32.mul_isNearestEven hf (by decide) nan).between (by decide) (by decide) (by decide) ?_ ?_
  · rw [F32.val_zero, Int.zero_mul]
    exact Int.mul_nonneg h0 hpos.le
  · rw [← hscale, Int.mul_comm]
    exact mul_le_mul_of_nonneg_left h1 hpos.le

theorem State.setTime_rate_between {s : State} (hc : s.cfg.Bounds) {raw : Word} (h : rawNegative raw = false) :
    F32.Between F32.zero s.cfg.maxLfoRate (s.setTime raw).rate := by
  have hv := rawToUnit_between h (s.nan 0)
  rw [setTime_writes]
  show F32.Between _ _ (F32.mul _ _ _)
  rw [F32.mul_comm_of_isFinite hc.maxRate hv.1]
  exact F32.mul_between_zero hc.maxRate hc.maxRate_nonneg hv _

theorem State.setDepth_effectDepth_between {s : State} (hc : s.cfg.Bounds) {raw : Word} (h : rawNegative raw = false) :
    F32.Between F32.zero s.cfg.maxFrequencyDeviation (s.setDepth raw).effectDepth :=
  F32.mul_between_zero hc.deviation hc.deviation_nonneg (rawToUnit_between h (s.nan 0)) _

/-! ## The oscillator -/

@[simp] theorem State.frameRegisters_phase (s : State) (x : Word) :
    (s.frameRegisters x).phase = s.oscAdvance.wrapTest.phase := by
  unfold frameRegisters oscillate
  rw [svfStep_writes, coefDerive_writes, indexStep_writes, wrapDraw_writes]

@[simp] theorem State.frameRegisters_f (s : State) (x : Word) :
    (s.frameRegisters x).f = s.oscAdvance.wrapTest.wrapDraw.f := by
  unfold frameRegisters oscillate
  rw [svfStep_writes, coefDerive_writes, indexStep_writes]

/-- F after WRAP_DRAW (R82, R84). -/
theorem State.wrapDraw_f (s : State) : s.wrapDraw.f = if s.wrap then
    F32.add (s.nan 1) s.cfg.centreFrequency (F32.mul (s.nan 0) (s.memRead s.tableIndex) s.effectDepth) else s.f := by
  unfold wrapDraw
  split <;> rfl

/-- The oscillator does not read the sample input stream. -/
theorem State.oscAdvance_wrapTest_withSampleIn (s : State) (ws : List Word) :
    ({ s with sampleIn := ws } : State).oscAdvance.wrapTest = { s.oscAdvance.wrapTest with sampleIn := ws } := rfl

/-- The phase after a frame is the folded one. -/
theorem State.runFrame_phase (s : State) (mL mR sL sR : Word) (rest : List Word) :
    (s.runFrame mL mR sL sR rest).phase = s.oscAdvance.wrapTest.phase := by
  simp only [runFrame, frameStep, streamOut, frameRegisters_phase, oscAdvance_wrapTest_withSampleIn]

/-- F after a frame is the one of the draw. -/
theorem State.runFrame_f (s : State) (mL mR sL sR : Word) (rest : List Word) :
    (s.runFrame mL mR sL sR rest).f = s.oscAdvance.wrapTest.wrapDraw.f := by
  simp only [runFrame, frameStep, streamOut, frameRegisters_f, oscAdvance_wrapTest_withSampleIn]
  exact (wrapDraw_f _).trans (wrapDraw_f s.oscAdvance.wrapTest).symm

/-- An increment that is not negative, added to a phase in [0, 1), neither overflows nor sets the sign bit. -/
theorem State.oscAdvance_phase_lt {s : State} (hphase : s.phaseOk = true) (hf : F32.isFinite s.rate = true)
    (h0 : 0 ≤ F32.val s.rate) (hsr : F32.isFinite s.cfg.sampleRate = true)
    (h1 : F32.val F32.one ≤ F32.val s.cfg.sampleRate) : s.oscAdvance.phase.toNat < 0x7F800000 := by
  have hp : s.phase.toNat < 0x3F800000 := by simpa [phaseOk] using hphase
  obtain ⟨hinc, hinc0, hincle⟩ := F32.div_between_zero hf h0 hsr h1 (s.nan 0)
  have e : s.oscAdvance.phase = F32.add (s.nan 1) s.phase (F32.div (s.nan 0) s.rate s.cfg.sampleRate) := rfl
  rw [e]
  generalize F32.div (s.nan 0) s.rate s.cfg.sampleRate = inc at hinc hinc0 hincle
  have hpf : F32.isFinite s.phase = true := F32.isFinite_of_toNat_lt (by omega)
  have hps : F32.sign s.phase = false := F32.sign_eq_false_iff.2 (by omega)
  have hp1 : F32.val s.phase ≤ F32.val F32.one := (F32.val_le_val_iff (by omega) (by decide)).2 hp.le
  have hp0 : F32.val F32.zero ≤ F32.val s.phase := (F32.val_le_val_iff (by decide) (by omega)).2 (Nat.zero_le _)
  have hzero := F32.val_zero
  have htop : F32.val inc ≤ F32.val 0x7F7FFFFF := F32.val_le_top hinc
  have hs := F32.sign_add_eq_false hpf hinc hps (by omega) (s.nan 1)
  exact F32.toNat_lt_of_isFinite hs ((F32.add_isNearestEven hpf hinc (s.nan 1)).isFinite_of_le hs (by omega))

/-- WRAP_TEST folds a phase that is finite and has a clear sign bit into [0, 1) (R81). -/
theorem State.wrapTest_phaseOk {s : State} (h : s.phase.toNat < 0x7F800000) : s.wrapTest.phaseOk = true := by
  have e : s.wrapTest.phase =
    if F32.ge s.phase F32.one then F32.sub (s.nan 0) s.phase (F32.floor s.phase) else s.phase := rfl
  rw [phaseOk, decide_eq_true_iff, e]
  split
  · next hw => exact (F32.sub_floor_exact ((F32.ge_one_iff h).1 hw) h _).1
  · next hw => exact Nat.lt_of_not_le fun hge => hw ((F32.ge_one_iff h).2 hge)

/-- A frame keeps PHASE in [0, 1) (R87): the increment is at most RATE, so the sum is finite, and the fold does the
rest. -/
theorem State.runFrame_phaseOk {s : State} (hphase : s.phaseOk = true) (hf : F32.isFinite s.rate = true)
    (h0 : 0 ≤ F32.val s.rate) (hsr : F32.isFinite s.cfg.sampleRate = true)
    (h1 : F32.val F32.one ≤ F32.val s.cfg.sampleRate) (mL mR sL sR : Word) (rest : List Word) :
    (s.runFrame mL mR sL sR rest).phaseOk = true := by
  rw [phaseOk, runFrame_phase]
  exact wrapTest_phaseOk (oscAdvance_phase_lt hphase hf h0 hsr h1)

/-- A draw with an effect depth of at most the deviation gives an F in the sweep (R82). -/
theorem State.wrapDraw_inSweep {s : State} (hc : s.cfg.Bounds) (ht : Memory.inRange s.table = true)
    (hdepth : F32.Between F32.zero s.cfg.maxFrequencyDeviation s.effectDepth) (hf : s.fOk = true) :
    s.cfg.inSweep s.wrapDraw.f = true := by
  obtain ⟨hfin, h0, hle⟩ := hdepth
  rw [F32.val_zero] at h0
  rw [wrapDraw_f]
  split
  · obtain ⟨hm, hlo, hhi⟩ := F32.mul_between_neg hfin h0 (Memory.read_between ht s.tableIndex.toNat) (s.nan 0)
    rw [F32.val_neg] at hlo
    exact Config.inSweep_add hc hm (by omega) (hhi.trans hle) _
  · exact hf

end Machine
end Sys2Proof
end

section
/-! PROOFS. Every step keeps the numeric ranges of 10_state R41. -/

namespace Sys2Proof.Machine

/-! ## The ranges -/

/-- The ranges of R41. -/
structure State.InRange (s : State) : Prop where
  phase : s.phaseOk = true
  rate : F32.Between F32.zero s.cfg.maxLfoRate s.rate
  effectDepth : F32.Between F32.zero s.cfg.maxFrequencyDeviation s.effectDepth
  f : s.fOk = true

theorem State.numericOk_iff {s : State} (hc : s.cfg.Bounds) : s.numericOk = true ↔ (s.mode = .ready → s.InRange) := by
  have hz : F32.isNaN F32.zero = false := by decide
  have hrate := F32.between_iff (w := s.rate) hz (F32.isNaN_of_isFinite hc.maxRate)
  have hdepth := F32.between_iff (w := s.effectDepth) hz (F32.isNaN_of_isFinite hc.deviation)
  have hall : (s.phaseOk && s.rateOk && s.effectDepthOk && s.fOk) = true ↔ s.InRange := by
    rw [Bool.and_eq_true, Bool.and_eq_true, Bool.and_eq_true, rateOk, hrate, effectDepthOk, hdepth]
    constructor
    · rintro ⟨⟨⟨hp, hr⟩, hd⟩, hf⟩
      exact ⟨hp, hr, hd, hf⟩
    · rintro ⟨hp, hr, hd, hf⟩
      exact ⟨⟨⟨hp, hr⟩, hd⟩, hf⟩
  rw [numericOk, Bool.or_eq_true, hall, decide_eq_true_iff, imp_iff_not_or]

theorem State.InRange.initialise {s : State} (h : s.cfg.ordinary = true) : s.initialise.InRange := by
  have hc := Config.bounds_of_ordinary h
  refine ⟨rfl, hc.initRate, hc.initDeviation, ?_⟩
  rw [Config.ordinary, Bool.and_eq_true] at h
  exact h.2

theorem State.InRange.runFrame {s : State} (h : s.InRange) (hc : s.cfg.Bounds) (ht : Memory.inRange s.table = true)
    (mL mR sL sR : Word) (rest : List Word) : (s.runFrame mL mR sL sR rest).InRange where
  phase := runFrame_phaseOk h.phase h.rate.1 h.rate.2.1 hc.sampleRate hc.one_le_sampleRate mL mR sL sR rest
  rate := by simpa using h.rate
  effectDepth := by simpa using h.effectDepth
  f := by
    rw [fOk, runFrame_cfg, runFrame_f]
    exact wrapDraw_inSweep (s := s.oscAdvance.wrapTest) hc ht h.effectDepth h.f

/-- What every step keeps in an ordinary configuration: the lifecycle invariant and, in READY, the ranges. -/
structure State.Ranged (s : State) : Prop where
  ordinary : s.cfg.ordinary = true
  inv : s.Inv
  ranges : s.mode = .ready → s.InRange

theorem State.Ranged.bounds {s : State} (h : s.Ranged) : s.cfg.Bounds := Config.bounds_of_ordinary h.ordinary

theorem State.Ranged.table {s : State} (h : s.Ranged) : Memory.inRange s.table = true :=
  (Bool.and_eq_true_iff.1 h.inv.config).2

theorem ranged_kept : Kept State.Ranged where
  took _ rest h := ⟨h.ordinary, h.inv.took rest, fun hm => let ⟨p, r, d, f⟩ := h.ranges hm; ⟨p, r, d, f⟩⟩
  respond _ w h := ⟨h.ordinary, h.inv.respond w, fun hm => let ⟨p, r, d, f⟩ := h.ranges hm; ⟨p, r, d, f⟩⟩
  raiseFault _ _ hidle _ hc h := ⟨h.ordinary, h.inv.raiseFault hidle hc, Mode.noConfusion⟩
  initialise _ hm h := ⟨h.ordinary, h.inv.initialise hm, fun _ => .initialise h.ordinary⟩
  setTime _ raw hm hr h := ⟨h.ordinary, h.inv.setTime hm raw, fun _ =>
    let ⟨p, _, d, f⟩ := h.ranges hm; ⟨p, State.setTime_rate_between h.bounds hr, d, f⟩⟩
  setDepth _ raw hm hr h := ⟨h.ordinary, h.inv.setDepth hm raw, fun _ =>
    let ⟨p, r, _, f⟩ := h.ranges hm; ⟨p, r, State.setDepth_effectDepth_between h.bounds hr, f⟩⟩
  process _ frames hm h :=
    ⟨h.ordinary, h.inv.process hm frames, fun _ => let ⟨p, r, d, f⟩ := h.ranges hm; ⟨p, r, d, f⟩⟩
  resume _ hf h := h.inv.frames.resolve_left hf
  runFrame _ mL mR sL sR rest hm h :=
    ⟨by simpa using h.ordinary, h.inv.runFrame hm mL mR sL sR rest, fun _ =>
      (h.ranges hm).runFrame h.bounds h.table mL mR sL sR rest⟩

/-- Settles O50: the ranges are kept together with the lifecycle invariant, which gives a PROCESS that goes on its READY
and the draw its table. -/
theorem numericRangesAreKept : Obligations.NumericRangesAreKept := by
  intro s t hord hinv hnum hs
  have h : s.Ranged :=
    ⟨hord, State.inv_iff.1 hinv, (State.numericOk_iff (Config.bounds_of_ordinary hord)).1 hnum⟩
  have ht := ranged_kept.of_step hs h
  exact (State.numericOk_iff ht.bounds).2 ht.ranges

end Sys2Proof.Machine
end

section
/-! SUPPORT. The frame loop of PROCESS over its streams, and what a step is in each of the core's activities. -/

namespace Sys2Proof.Machine

/-! ## The step, by what the core does next -/

theorem step_resume {s : State} (h : s.framesLeft ≠ 0) : step s = .next s.continueProcess := by
  rw [step, State.activity_resume h]

theorem step_wait {s : State} (h : s.activity = .wait) : step s = .next s := by
  rw [step, h]

theorem step_take {s : State} {i : Instr} {rest : List Word} (h : s.activity = .take i rest) :
    step s = exec i (s.took rest) := by
  rw [step, h]

theorem State.outputTaken_eq_false_iff {s : State} : s.outputTaken = false ↔ s.outTaken < s.sampleOut.length := by
  rw [outputTaken, decide_eq_false_iff_not, Nat.not_le]

/-- A core with no PROCESS under way takes the command its port begins with (R61, R127). -/
theorem step_of_decoded {s : State} {i : Instr} {rest : List Word} (hm : s.mode ≠ .halted) (hidle : s.idle)
    (hd : decodeCommand s.cmdPort = .command i rest) : step s = exec i (s.took rest) := by
  obtain ⟨hf, ho⟩ := hidle
  refine step_take ?_
  rw [State.activity_decodes hf ho hm, hd, activityOf]

/-- Output words that the host does not take hold the core (20_memory R60). -/
theorem step_untaken {s : State} (hf : s.framesLeft = 0) (ho : s.outTaken < s.sampleOut.length) : step s = .next s :=
  step_wait (State.activity_untaken hf (State.outputTaken_eq_false_iff.2 ho))

/-- With no frames left a core waits if it would wait once its output is taken. -/
theorem step_wait_of_taken {s : State} (hf : s.framesLeft = 0) (h : s.outputTaken = true → s.activity = .wait) :
    step s = .next s := by
  cases ho : s.outputTaken with
  | false => exact step_wait (State.activity_untaken hf ho)
  | true => exact step_wait (h ho)

/-! ## The frame loop -/

theorem runFrames_cons {s : State} {mL mR sL sR : Word} {rest : List Word}
    (h : s.sampleIn = mL :: mR :: sL :: sR :: rest) (k : Nat) :
    runFrames (k + 1) s = runFrames k (s.runFrame mL mR sL sR rest) := by
  rw [runFrames, h]

/-- Where no whole frame is there, no frame is begun (assumption log 7). -/
theorem runFrames_starved {s : State} (h : s.sampleIn.length < 4) (k : Nat) : runFrames k s = s := by
  cases k with
  | zero => rfl
  | succ k =>
    unfold runFrames
    split
    · next e =>
      simp only [e, List.length_cons] at h
      omega
    · rfl

/-- A stream holds a whole frame or fewer than four words. -/
theorem frame_or_starved (ws : List Word) :
    (∃ mL mR sL sR rest, ws = mL :: mR :: sL :: sR :: rest) ∨ ws.length < 4 := by
  match ws with
  | mL :: mR :: sL :: sR :: rest => exact .inl ⟨mL, mR, sL, sR, rest, rfl⟩
  | [] | [_] | [_, _] | [_, _, _] => exact .inr (by simp)

theorem State.continueProcess_starved {s : State} (h : s.sampleIn.length < 4) : s.continueProcess = s :=
  runFrames_starved h _

theorem State.continueProcess_of_framesLeft_zero {s : State} (h : s.framesLeft = 0) : s.continueProcess = s := by
  rw [continueProcess, h]
  rfl

theorem exec_process_of_ready {s : State} (h : s.mode = .ready) (frames : Word) :
    exec (.process frames) s = .next ({ s with framesLeft := frames } : State).continueProcess :=
  State.whenReady_ready h _

section
variable (s : State)
@[simp] theorem State.continueProcess_cfg : s.continueProcess.cfg = s.cfg := runFrames_cfg _ s
@[simp] theorem State.continueProcess_table : s.continueProcess.table = s.table := runFrames_table _ s
@[simp] theorem State.continueProcess_faultCause : s.continueProcess.faultCause = s.faultCause := runFrames_faultCause _ s
@[simp] theorem State.continueProcess_rate : s.continueProcess.rate = s.rate := runFrames_rate _ s
@[simp] theorem State.continueProcess_q : s.continueProcess.q = s.q := runFrames_q _ s
@[simp] theorem State.continueProcess_depthKnob : s.continueProcess.depthKnob = s.depthKnob := runFrames_depthKnob _ s
@[simp] theorem State.continueProcess_timeKnob : s.continueProcess.timeKnob = s.timeKnob := runFrames_timeKnob _ s
@[simp] theorem State.continueProcess_effectDepth : s.continueProcess.effectDepth = s.effectDepth :=
  runFrames_effectDepth _ s
@[simp] theorem State.continueProcess_tkw : s.continueProcess.tkw = s.tkw := runFrames_tkw _ s
@[simp] theorem State.continueProcess_dkw : s.continueProcess.dkw = s.dkw := runFrames_dkw _ s
@[simp] theorem State.continueProcess_cmdPort : s.continueProcess.cmdPort = s.cmdPort := runFrames_cmdPort _ s
@[simp] theorem State.continueProcess_outTaken : s.continueProcess.outTaken = s.outTaken := runFrames_outTaken _ s
@[simp] theorem State.continueProcess_readback : s.continueProcess.readback = s.readback := runFrames_readback _ s
end

theorem State.memRead_eq_of_table {s t : State} (h : t.table = s.table) (k : BitVec 10) : t.memRead k = s.memRead k := by
  rw [memRead, h, memRead]

/-! ## The output of a block -/

/-- What the output words of `k` frames are, beside the input words they came of: the two main slots of a frame hold one
word (R104), its two sub slots hold the frame's sub words (R102). -/
structure IsBlockOutput (k : Nat) (input out : List Word) : Prop where
  length : out.length = 4 * k
  frames : ∀ j, j < k → out[4 * j]? = out[4 * j + 1]? ∧ out[4 * j + 2]? = input[4 * j + 2]? ∧
    out[4 * j + 3]? = input[4 * j + 3]?

theorem IsBlockOutput.zero (input : List Word) : IsBlockOutput 0 input [] :=
  ⟨rfl, fun _ h => absurd h (Nat.not_lt_zero _)⟩

theorem IsBlockOutput.cons {k : Nat} {input out : List Word} (h : IsBlockOutput k input out) (l mL mR sL sR : Word) :
    IsBlockOutput (k + 1) (mL :: mR :: sL :: sR :: input) (l :: l :: sL :: sR :: out) where
  length := by simp [h.length, Nat.mul_succ]
  frames
    | 0, _ => ⟨rfl, rfl, rfl⟩
    | j + 1, hj => h.frames j (Nat.lt_of_succ_lt_succ hj)

/-- What a block of `k` frames leaves of FRAMES_LEFT and of the streams once it has run to its end. -/
structure RanFrames (k : Nat) (s t : State) : Prop where
  framesLeft : t.framesLeft = s.framesLeft - BitVec.ofNat 32 k
  sampleIn : t.sampleIn = s.sampleIn.drop (4 * k)
  sampleOut : ∃ out, t.sampleOut = s.sampleOut ++ out ∧ IsBlockOutput k s.sampleIn out

/-- With the words of `k` frames there, the loop runs all of them (R100). -/
theorem runFrames_ran : ∀ (k : Nat) (s : State), 4 * k ≤ s.sampleIn.length → RanFrames k s (runFrames k s)
  | 0, s, _ => ⟨(BitVec.sub_zero _).symm, rfl, [], (List.append_nil _).symm, .zero _⟩
  | k + 1, s, h => by
    obtain ⟨mL, mR, sL, sR, rest, e⟩ := (frame_or_starved s.sampleIn).resolve_right (by omega)
    rw [runFrames_cons e]
    have hrest : 4 * k ≤ rest.length := by
      rw [e] at h
      simp only [List.length_cons] at h
      omega
    obtain ⟨hf, hi, out, ho, hb⟩ := runFrames_ran k (s.runFrame mL mR sL sR rest) (by simpa using hrest)
    rw [State.runFrame_sampleIn] at hi hb
    refine ⟨?_, ?_, _, ?_, e ▸ hb.cons (s.runFrame mL mR sL sR rest).l mL mR sL sR⟩
    · rw [hf, State.runFrame_framesLeft, BitVec.sub_sub, BitVec.add_comm, BitVec.ofNat_add]
      rfl
    · rw [hi, e]
      rfl
    · rw [ho, State.runFrame_sampleOut, List.append_assoc]
      rfl

/-- PROCESS of `frames` frames with its words there runs to its end. -/
theorem continueProcess_ran {frames : Word} {s : State} (h : 4 * frames.toNat ≤ s.sampleIn.length) :
    RanFrames frames.toNat { s with framesLeft := frames } ({ s with framesLeft := frames } : State).continueProcess :=
  runFrames_ran _ _ h

theorem RanFrames.framesLeft_zero {frames : Word} {s t : State}
    (h : RanFrames frames.toNat { s with framesLeft := frames } t) : t.framesLeft = 0 := by
  simpa using h.framesLeft

/-! ## Words behind a frame's own -/

/-- WRAP_DRAW does not read the sample input stream. -/
theorem State.wrapDraw_withSampleIn (s : State) (ws : List Word) :
    ({ s with sampleIn := ws } : State).wrapDraw = { s.wrapDraw with sampleIn := ws } := by
  simp only [wrapDraw]
  split <;> rfl

/-- INDEX_STEP does not read the sample input stream. -/
theorem State.indexStep_withSampleIn (s : State) (ws : List Word) :
    ({ s with sampleIn := ws } : State).indexStep = { s.indexStep with sampleIn := ws } := by
  simp only [indexStep]
  split <;> rfl

/-- Nor does the filter's part of a frame. -/
theorem State.filter_withSampleIn (s : State) (ws : List Word) (x : Word) :
    ({ s with sampleIn := ws } : State).coefDerive.svfStep x = { s.coefDerive.svfStep x with sampleIn := ws } := rfl

theorem State.frameRegisters_withSampleIn (s : State) (ws : List Word) (x : Word) :
    ({ s with sampleIn := ws } : State).frameRegisters x = { s.frameRegisters x with sampleIn := ws } := by
  simp only [frameRegisters, oscillate, oscAdvance_wrapTest_withSampleIn, wrapDraw_withSampleIn, indexStep_withSampleIn,
    filter_withSampleIn]

/-- Words behind those of a frame stay behind what the frame leaves, and change nothing else of it. -/
theorem State.runFrame_supplySamples (s : State) (mL mR sL sR : Word) (rest late : List Word) :
    (s.supplySamples late).runFrame mL mR sL sR (rest ++ late) =
      (s.runFrame mL mR sL sR rest).supplySamples late := by
  simp only [runFrame, frameStep, supplySamples, frameRegisters_withSampleIn]
  rfl

/-- The loop over all frames left, on a stream with more words behind it: it runs as it would without them, and then goes
on with them. -/
theorem runFrames_supplySamples (late : List Word) : ∀ (k : Nat) (s : State), s.framesLeft.toNat = k →
    runFrames k (s.supplySamples late) = ((runFrames k s).supplySamples late).continueProcess
  | 0, s, h => (State.continueProcess_of_framesLeft_zero (s := s.supplySamples late) (BitVec.eq_of_toNat_eq h)).symm
  | k + 1, s, h => by
    rcases frame_or_starved s.sampleIn with ⟨mL, mR, sL, sR, rest, e⟩ | hstarved
    · have hlate : (s.supplySamples late).sampleIn = mL :: mR :: sL :: sR :: (rest ++ late) := by simp [e]
      have hk : (s.runFrame mL mR sL sR rest).framesLeft.toNat = k := by
        rw [State.runFrame_framesLeft]
        bv_omega
      rw [runFrames_cons hlate, State.runFrame_supplySamples, runFrames_cons e]
      exact runFrames_supplySamples late k _ hk
    · rw [runFrames_starved hstarved, State.continueProcess, frameCount, State.supplySamples_framesLeft, h]

/-- A PROCESS whose words come in two parts ends as if they had come at once (20_memory R60). -/
theorem State.continueProcess_supplySamples (s : State) (late : List Word) :
    (s.supplySamples late).continueProcess = (s.continueProcess.supplySamples late).continueProcess :=
  runFrames_supplySamples late _ s rfl

end Sys2Proof.Machine
end

section
/-! PROOFS. The memory, the streams and the ports of 20_memory: what no step writes, how the core waits, and how a PROCESS
takes its words and ends. -/

namespace Sys2Proof.Machine

/-! ## Waiting -/

/-- Settles O8: each way to wait is an activity that changes nothing, or a frame loop that begins no frame. -/
theorem waitingCoreStaysAsItIs : Obligations.WaitingCoreStaysAsItIs := by
  refine ⟨fun s hm hf hd => step_wait_of_taken hf fun ho => ?_, fun s hf ho => step_untaken hf ho,
    fun s hm hf hp => step_wait_of_taken hf fun ho => ?_, fun s hf hstarved => ?_⟩
  · rw [State.activity_decodes hf ho hm, hd, activityOf]
  · rw [State.activity_halted hf ho hm, hp, haltedActivity]
  · rw [step_resume hf, State.continueProcess_starved hstarved]

/-- A step with a PROCESS under way does nothing but run frames. -/
theorem step_underWay {s : State} (h : s.framesLeft ≠ 0 ∨ s.outTaken < s.sampleOut.length) :
    step s = .next s.continueProcess := by
  by_cases hf : s.framesLeft = 0
  · rw [step_untaken hf (h.resolve_left (not_not_intro hf)), State.continueProcess_of_framesLeft_zero hf]
  · exact step_resume hf

/-- Settles O9: running frames leaves each of these fields as it was. -/
theorem runningBlockTakesNoCommand : Obligations.RunningBlockTakesNoCommand := by
  intro s t h hs
  rw [step_underWay h] at hs
  injection hs with hs
  subst hs
  exact ⟨s.continueProcess_cmdPort, s.continueProcess_readback, s.continueProcess_rate, s.continueProcess_effectDepth,
    s.continueProcess_q, s.continueProcess_mode, s.continueProcess_faultCause⟩

/-! ## What no step writes -/

theorem exec_table_cfg {i : Instr} {s t : State} (h : exec i s = .next t) : t.table = s.table ∧ t.cfg = s.cfg := by
  cases exec_effect h with
  | unchanged => exact ⟨rfl, rfl⟩
  | responds w => exact ⟨rfl, rfl⟩
  | faults c _ _ => exact ⟨rfl, rfl⟩
  | initialises p a _ _ => exact ⟨rfl, rfl⟩
  | setsTime raw _ _ _ => exact ⟨rfl, rfl⟩
  | setsDepth raw _ _ _ => exact ⟨rfl, rfl⟩
  | processes frames _ _ => exact ⟨State.continueProcess_table _, State.continueProcess_cfg _⟩

theorem step_table_cfg {s t : State} (h : step s = .next t) : t.table = s.table ∧ t.cfg = s.cfg := by
  rcases step_cases h with ⟨-, rfl⟩ | ⟨i, rest, -, he⟩ | ⟨rest, -, rfl⟩ | ⟨rest, -, rfl⟩ | ⟨-, rfl⟩
  · exact ⟨s.continueProcess_table, s.continueProcess_cfg⟩
  · exact exec_table_cfg (s := s.took rest) he
  · exact ⟨rfl, rfl⟩
  · exact ⟨rfl, rfl⟩
  · exact ⟨rfl, rfl⟩

/-- Settles O27: no part of a step writes the table or the configuration. -/
theorem tableAndConstantsNeverChange : Obligations.TableAndConstantsNeverChange := by
  intro s t h
  obtain ⟨htable, hcfg⟩ := step_table_cfg h
  exact ⟨htable, State.memRead_eq_of_table htable, hcfg⟩

/-! ## PROCESS to its end -/

/-- Settles O44: the frame loop with its words there, by induction on the frames, and the fields that no frame writes. -/
theorem processRunsExactlyItsFrames : Obligations.ProcessRunsExactlyItsFrames := by
  intro frames s hm hwords
  have hran := continueProcess_ran (s := s) hwords
  obtain ⟨out, ho, hb⟩ := hran.sampleOut
  refine ⟨_, out, exec_process_of_ready hm frames, hran.framesLeft_zero, hran.sampleIn, ho, hb.length, hb.frames, ?_⟩
  simp [State.memRead]

/-- Settles O47: the block on all its words is the block on the early ones, resumed with the late ones; where no frames
are left, resuming changes nothing. -/
theorem lateSamplesChangeNothing : Obligations.LateSamplesChangeNothing := by
  intro frames early late s t hm ht
  rw [exec_process_of_ready (s := { s with sampleIn := early }) hm] at ht
  injection ht with ht
  have hboth : exec (.process frames) { s with sampleIn := early ++ late } =
      .next (t.supplySamples late).continueProcess := by
    rw [← ht, ← State.continueProcess_supplySamples]
    exact exec_process_of_ready (s := { s with sampleIn := early ++ late }) hm frames
  rw [hboth]
  split
  · next hf => exact congrArg _ (State.continueProcess_of_framesLeft_zero (s := t.supplySamples late) hf)
  · next hf => exact (step_resume (s := t.supplySamples late) hf).symm

/-- Settles O56: the step runs the block; the 4n words it put hold the core until the host takes the last, and then no
PROCESS is under way. -/
theorem processEndsWhenItsOutputIsTaken : Obligations.ProcessEndsWhenItsOutputIsTaken := by
  intro frames s rest hm hf hout htaken hd hwords
  have hidle : s.idle := ⟨hf, State.outputTaken_iff.2 (by simp [hout])⟩
  have hran := continueProcess_ran (s := s.took rest) hwords
  set t := ({ s.took rest with framesLeft := frames } : State).continueProcess with ht
  have hmode : t.mode ≠ .halted := by simp [ht, hm]
  have hport : t.cmdPort = rest := by simp [ht]
  have htaken' : t.outTaken = 0 := by simp [ht, htaken]
  have hframes : t.framesLeft = 0 := hran.framesLeft_zero
  have hlen : t.sampleOut.length = 4 * frames.toNat := by
    obtain ⟨out, ho, hb⟩ := hran.sampleOut
    rw [ho, List.length_append, hb.length]
    simp [hout]
  refine ⟨t, ?_, hframes, hport, hlen, fun k hk => ⟨?_, ?_⟩, fun i later hi => ⟨?_, ?_⟩⟩
  · rw [step_of_decoded (State.ne_halted_of_ready hm) hidle hd]
    exact exec_process_of_ready (s := s.took rest) hm frames
  · exact step_untaken hframes (by simp [htaken', hlen, hk])
  · exact step_untaken hframes (by simp [htaken', hlen, hk])
  · exact step_of_decoded hmode ⟨hframes, State.outputTaken_iff.2 (by simp [hlen])⟩ (hport ▸ hi)
  · exact step_of_decoded hmode ⟨hframes, State.outputTaken_iff.2 (by simp [hlen])⟩ (hport ▸ hi)

end Sys2Proof.Machine
end

section
/-! SUPPORT. Header words by their fields, and the decoder by opcode. -/

namespace Sys2Proof

/-! ## Words by their fields -/

/-- A field is two words side by side exactly when its two parts are these words. -/
theorem extractLsb'_eq_append_iff {w s m k : Nat} {h : BitVec w} {c : BitVec m} {v : BitVec k} :
    h.extractLsb' s (m + k) = c ++ v ↔ h.extractLsb' (s + k) m = c ∧ h.extractLsb' s k = v := by
  rw [← BitVec.extractLsb'_append_extractLsb'_eq_extractLsb' rfl]
  constructor
  · intro e
    have hhigh := congrArg (BitVec.extractLsb' k m) e
    have hlow := congrArg (BitVec.extractLsb' 0 k) e
    rw [BitVec.extractLsb'_append_eq_left, BitVec.extractLsb'_append_eq_left] at hhigh
    rw [BitVec.extractLsb'_append_eq_right, BitVec.extractLsb'_append_eq_right] at hlow
    exact ⟨hhigh, hlow⟩
  · rintro ⟨rfl, rfl⟩
    rfl

section
variable (m k : Nat) {h : BitVec (m + k)} {c : BitVec m} {v : BitVec k}

theorem eq_append_iff : h = c ++ v ↔ h.extractLsb' k m = c ∧ h.extractLsb' 0 k = v := by
  have e := extractLsb'_eq_append_iff (h := h) (s := 0) (c := c) (v := v)
  rwa [BitVec.extractLsb'_eq_self, Nat.zero_add] at e

/-- A match under a mask of the high bits is a match of the high field. -/
theorem and_mask_eq_iff : h &&& (BitVec.allOnes m ++ 0#k) = c ++ 0#k ↔ h.extractLsb' k m = c := by
  rw [eq_append_iff m k, BitVec.extractLsb'_and, BitVec.extractLsb'_and, BitVec.extractLsb'_append_eq_left,
    BitVec.extractLsb'_append_eq_right, BitVec.and_allOnes, BitVec.and_zero]
  exact and_iff_left rfl

/-- A field set in the zero bits of a word stands beside its other bits. -/
theorem append_zero_or_zeroExtend : (c ++ 0#k) ||| v.zeroExtend (m + k) = c ++ v := by
  have e : v.zeroExtend (m + k) = 0#m ++ v := by
    apply BitVec.eq_of_toNat_eq
    rw [BitVec.toNat_append, BitVec.toNat_setWidth_of_le (Nat.le_add_left k m), BitVec.toNat_zero,
      Nat.zero_shiftLeft, Nat.zero_or]
  rw [e, BitVec.or_append, BitVec.or_zero, BitVec.zero_or]

end

/-! ## The header formats of R62 -/

/-- The headers of INIT and PROCESS. -/
theorem eq_plainHeader_iff {h : Word} {op : BitVec 4} :
    h = op ++ 0#28 ↔ h.extractLsb' 28 4 = op ∧ h.extractLsb' 0 28 = 0 :=
  eq_append_iff 4 28

theorem setParamHeader_eq_append (p : BitVec 8) : (0x10000000 ||| p.zeroExtend 32 : Word) = 0x100000#24 ++ p :=
  append_zero_or_zeroExtend 24 8 (c := 0x100000#24)

theorem readRegHeader_eq_append (r : BitVec 4) : (0x30000000 ||| r.zeroExtend 32 : Word) = 0x3000000#28 ++ r :=
  append_zero_or_zeroExtend 28 4 (c := 0x3000000#28)

theorem eq_setParamHeader_iff {h : Word} {p : BitVec 8} : h = 0x10000000 ||| p.zeroExtend 32 ↔
    h.extractLsb' 28 4 = 1 ∧ h.extractLsb' 8 20 = 0 ∧ h.extractLsb' 0 8 = p := by
  have hhigh : h.extractLsb' 8 24 = 0x100000#24 ↔ h.extractLsb' 28 4 = 1 ∧ h.extractLsb' 8 20 = 0 :=
    extractLsb'_eq_append_iff (c := 1#4) (v := 0#20)
  rw [setParamHeader_eq_append, ← and_assoc, ← hhigh]
  exact eq_append_iff 24 8

theorem eq_readRegHeader_iff {h : Word} {r : BitVec 4} : h = 0x30000000 ||| r.zeroExtend 32 ↔
    h.extractLsb' 28 4 = 3 ∧ h.extractLsb' 5 23 = 0 ∧ h.extractLsb' 4 1 = 0 ∧ h.extractLsb' 0 4 = r := by
  have hlow : h.extractLsb' 4 24 = 0#24 ↔ h.extractLsb' 5 23 = 0 ∧ h.extractLsb' 4 1 = 0 :=
    extractLsb'_eq_append_iff (c := 0#23) (v := 0#1)
  have hhigh : h.extractLsb' 4 28 = 0x3000000#28 ↔ h.extractLsb' 28 4 = 3 ∧ h.extractLsb' 4 24 = 0#24 :=
    extractLsb'_eq_append_iff (c := 3#4) (v := 0#24)
  rw [readRegHeader_eq_append, ← and_assoc (b := h.extractLsb' 4 1 = 0), ← hlow, ← and_assoc, ← hhigh]
  exact eq_append_iff 28 4

/-- The match and mask of R70 for SET_PARAM with a parameter index. -/
theorem eq_setParamHeader_iff_mask {h : Word} {p : BitVec 8} : h = 0x10000000 ||| p.zeroExtend 32 ↔
    h &&& 0xFFFFFF00 = 0x10000000 ∧ p = h.extractLsb' 0 8 := by
  have hmask : h &&& 0xFFFFFF00 = 0x10000000 ↔ h.extractLsb' 8 24 = 0x100000#24 :=
    and_mask_eq_iff 24 8 (c := 0x100000#24)
  rw [setParamHeader_eq_append, hmask, eq_comm (a := p)]
  exact eq_append_iff 24 8

/-- The match and mask of R70 for READ_REG. -/
theorem eq_readRegHeader_iff_mask {h : Word} {r : BitVec 4} : h = 0x30000000 ||| r.zeroExtend 32 ↔
    h &&& 0xFFFFFFF0 = 0x30000000 ∧ r = h.extractLsb' 0 4 := by
  have hmask : h &&& 0xFFFFFFF0 = 0x30000000 ↔ h.extractLsb' 4 28 = 0x3000000#28 :=
    and_mask_eq_iff 28 4 (c := 0x3000000#28)
  rw [readRegHeader_eq_append, hmask, eq_comm (a := r)]
  exact eq_append_iff 28 4

/-! ## The decoder, by opcode (R78) -/

theorem opcode_cases (h : Word) : h.extractLsb' 28 4 = 0 ∨ h.extractLsb' 28 4 = 1 ∨ h.extractLsb' 28 4 = 2 ∨
    h.extractLsb' 28 4 = 3 ∨ 4 ≤ (h.extractLsb' 28 4).toNat := by
  bv_omega

section
variable {h : Word}

theorem decodeHeader_of_op_zero (hop : h.extractLsb' 28 4 = 0) :
    decodeHeader h = if h.extractLsb' 0 28 = 0 then .ok .init else .error .reservedBits := by
  rw [decodeHeader, hop]
  rfl

theorem decodeHeader_of_op_one (hop : h.extractLsb' 28 4 = 1) :
    decodeHeader h = if h.extractLsb' 8 20 = 0 then
        if h.extractLsb' 0 8 = 0 then .ok .setParamTime
        else if h.extractLsb' 0 8 = 1 then .ok .setParamDepth
        else .ok (.setParamNone (h.extractLsb' 0 8))
      else .error .reservedBits := by
  rw [decodeHeader, hop]
  rfl

theorem decodeHeader_of_op_two (hop : h.extractLsb' 28 4 = 2) :
    decodeHeader h = if h.extractLsb' 0 28 = 0 then .ok .process else .error .reservedBits := by
  rw [decodeHeader, hop]
  rfl

theorem decodeHeader_of_op_three (hop : h.extractLsb' 28 4 = 3) :
    decodeHeader h = if h.extractLsb' 5 23 = 0 then
        if h.extractLsb' 4 1 = 0 then .ok (.readReg (Reg.ofNumber (h.extractLsb' 0 4))) else .error .reservedRegister
      else .error .reservedBits := by
  rw [decodeHeader, hop]
  rfl

theorem decodeHeader_of_op_reserved (hop : 4 ≤ (h.extractLsb' 28 4).toNat) :
    decodeHeader h = .error .reservedOpcode := by
  unfold decodeHeader
  split
  · omega
  · omega
  · omega
  · omega
  · rfl

end

/-- The classes of illegal headers: a reserved opcode (R71), a non-zero must-be-zero bit (R72), a reserved register
number (R73). -/
def IsIllegalHeader (h : Word) : Prop :=
  4 ≤ (h.extractLsb' 28 4).toNat ∨
  (h.extractLsb' 28 4 = 0 ∧ h.extractLsb' 0 28 ≠ 0) ∨
  (h.extractLsb' 28 4 = 1 ∧ h.extractLsb' 8 20 ≠ 0) ∨
  (h.extractLsb' 28 4 = 2 ∧ h.extractLsb' 0 28 ≠ 0) ∨
  (h.extractLsb' 28 4 = 3 ∧ h.extractLsb' 5 23 ≠ 0) ∨
  (h.extractLsb' 28 4 = 3 ∧ h.extractLsb' 4 1 = 1)

theorem decodeHeader_of_isIllegalHeader {h : Word} (hh : IsIllegalHeader h) : ∃ why, decodeHeader h = .error why := by
  rcases hh with hop | ⟨hop, hz⟩ | ⟨hop, hz⟩ | ⟨hop, hz⟩ | ⟨hop, hz⟩ | ⟨hop, h4⟩
  · exact ⟨_, decodeHeader_of_op_reserved hop⟩
  · exact ⟨_, (decodeHeader_of_op_zero hop).trans (if_neg hz)⟩
  · exact ⟨_, (decodeHeader_of_op_one hop).trans (if_neg hz)⟩
  · exact ⟨_, (decodeHeader_of_op_two hop).trans (if_neg hz)⟩
  · exact ⟨_, (decodeHeader_of_op_three hop).trans (if_neg hz)⟩
  · rw [decodeHeader_of_op_three hop, h4]
    split
    · exact ⟨_, rfl⟩
    · exact ⟨_, rfl⟩

end Sys2Proof
end

section
/-! PROOFS. The encoding of 30_encoding: the legal headers are the rows of one table, a command stands in the words that
`encode` gives it and in no others, and a step takes what the decoder answers. -/

namespace Sys2Proof

/-! ## The rows of the opcode table (R70) -/

/-- The header word of a row. -/
def Header.word : Header → Word
  | .init => 0x00000000
  | .setParamTime => 0x10000000
  | .setParamDepth => 0x10000001
  | .setParamNone pidx => 0x10000000 ||| pidx.zeroExtend 32
  | .process => 0x20000000
  | .readReg reg => 0x30000000 ||| reg.number.zeroExtend 32

/-- PIDX 0 and 1 belong to the TIME and DEPTH rows. -/
def Header.Legal : Header → Prop
  | .setParamNone pidx => 2 ≤ pidx.toNat
  | _ => True

/-- The row of a command. -/
def Instr.row : Instr → Header
  | .init _ _ => .init
  | .setParamTime _ => .setParamTime
  | .setParamDepth _ => .setParamDepth
  | .setParamNone pidx _ => .setParamNone pidx
  | .process _ => .process
  | .readReg reg => .readReg reg

theorem Instr.header_eq_word (i : Instr) : i.header = i.row.word := by cases i <;> rfl

theorem Instr.wellFormed_iff (i : Instr) : i.wellFormed = true ↔ i.row.Legal := by
  cases i <;> simp [wellFormed, row, Header.Legal]

theorem Reg.number_ofNumber (k : BitVec 4) : (Reg.ofNumber k).number = k := by
  revert k
  decide

/-- Every row decodes to itself. -/
theorem decodeHeader_word {hd : Header} (h : hd.Legal) : decodeHeader hd.word = .ok hd :=
  match hd with
  | .init => decodeHeader_init 0 0
  | .setParamTime => decodeHeader_setParamTime 0
  | .setParamDepth => decodeHeader_setParamDepth 0
  | .setParamNone _ => decodeHeader_setParamNone h 0
  | .process => decodeHeader_process 0
  | .readReg reg => decodeHeader_readReg reg

/-- Only the rows are legal headers: each branch of the decoder fixes every field of its header. -/
theorem row_of_decodeHeader {h : Word} {hd : Header} (e : decodeHeader h = .ok hd) : hd.Legal ∧ h = hd.word := by
  rcases opcode_cases h with hop | hop | hop | hop | hop
  · rw [decodeHeader_of_op_zero hop] at e
    split at e <;> cases e
    next hz => exact ⟨trivial, eq_plainHeader_iff.2 ⟨hop, hz⟩⟩
  · rw [decodeHeader_of_op_one hop] at e
    split at e
    · next hz =>
      split at e
      · next htime => cases e; exact ⟨trivial, eq_setParamHeader_iff.2 ⟨hop, hz, htime⟩⟩
      · next htime =>
        split at e <;> cases e
        · next hdepth => exact ⟨trivial, eq_setParamHeader_iff.2 ⟨hop, hz, hdepth⟩⟩
        · have hnone : 2 ≤ (h.extractLsb' 0 8).toNat := by bv_omega
          exact ⟨hnone, eq_setParamHeader_iff.2 ⟨hop, hz, rfl⟩⟩
    · cases e
  · rw [decodeHeader_of_op_two hop] at e
    split at e <;> cases e
    next hz => exact ⟨trivial, eq_plainHeader_iff.2 ⟨hop, hz⟩⟩
  · rw [decodeHeader_of_op_three hop] at e
    split at e
    · next hz =>
      split at e <;> cases e
      next h4 => exact ⟨trivial, eq_readRegHeader_iff.2 ⟨hop, hz, h4, (Reg.number_ofNumber _).symm⟩⟩
    · cases e
  · rw [decodeHeader_of_op_reserved hop] at e
    cases e

theorem decodeHeader_eq_ok_iff {h : Word} {hd : Header} : decodeHeader h = .ok hd ↔ hd.Legal ∧ h = hd.word :=
  ⟨row_of_decodeHeader, fun ⟨hl, e⟩ => e ▸ decodeHeader_word hl⟩

/-! ## Commands on the port -/

/-- A legal header answers a command exactly when it is the command's row with the command's operand words behind it. -/
theorem Header.withOperands_eq_command_iff {hd : Header} {ws rest : List Word} {i : Instr} :
    hd.withOperands ws = .command i rest ↔ hd = i.row ∧ ws = i.operands ++ rest := by
  constructor
  · intro e
    unfold withOperands at e
    split at e <;> cases e <;> exact ⟨rfl, rfl⟩
  · rintro ⟨rfl, rfl⟩
    cases i <;> rfl

theorem decodeCommand_cons_eq_command_iff {h : Word} {ws rest : List Word} {i : Instr} :
    decodeCommand (h :: ws) = .command i rest ↔
      ∃ hd, decodeHeader h = .ok hd ∧ hd.withOperands ws = .command i rest := by
  rw [decodeCommand]
  cases decodeHeader h <;> simp

/-- The first command of a sequence of words is `i` exactly when `i` is well formed and the words begin with its
encoding. -/
theorem decodeCommand_eq_command_iff {ws rest : List Word} {i : Instr} :
    decodeCommand ws = .command i rest ↔ i.wellFormed = true ∧ ws = encode i ++ rest := by
  cases ws with
  | nil => simp [decodeCommand, encode]
  | cons h ws =>
    calc decodeCommand (h :: ws) = .command i rest
      _ ↔ ∃ hd, decodeHeader h = .ok hd ∧ hd.withOperands ws = .command i rest :=
        decodeCommand_cons_eq_command_iff
      _ ↔ decodeHeader h = .ok i.row ∧ ws = i.operands ++ rest := by simp [Header.withOperands_eq_command_iff]
      _ ↔ i.wellFormed = true ∧ h :: ws = encode i ++ rest := by
        rw [decodeHeader_eq_ok_iff, i.wellFormed_iff, encode, i.header_eq_word, List.cons_append, List.cons.injEq,
          and_assoc]

/-- Settles O1: the decoder answers what the words are the encoding of. -/
theorem encodedCommandDecodesToItself : Obligations.EncodedCommandDecodesToItself :=
  fun _ _ hwf => decodeCommand_eq_command_iff.2 ⟨hwf, rfl⟩

/-- Settles O2, by the converse of the same equivalence. -/
theorem decodedCommandWasEncoded : Obligations.DecodedCommandWasEncoded :=
  fun _ _ _ hd => decodeCommand_eq_command_iff.1 hd

/-- Settles O3: each row by its word; the two rows with a field by their match and mask. -/
theorem legalHeadersAreTheTableRows : Obligations.LegalHeadersAreTheTableRows := by
  refine fun h => ⟨?_, ?_, ?_, fun p => ?_, ?_, fun r => ?_⟩
  all_goals rw [decodeHeader_eq_ok_iff]
  · exact and_iff_right trivial
  · exact and_iff_right trivial
  · exact and_iff_right trivial
  · rw [and_comm, Header.word, eq_setParamHeader_iff_mask, and_assoc, Header.Legal]
  · exact and_iff_right trivial
  · exact (and_iff_right trivial).trans eq_readRegHeader_iff_mask

/-- Settles O5: seven of the examples are encodings; the two illegal headers are evaluated. -/
theorem exampleWordsDecode : Obligations.ExampleWordsDecode :=
  ⟨encodedCommandDecodesToItself (.init 0 0) [] rfl, encodedCommandDecodesToItself (.setParamTime 0x7FFFFFFF) [] rfl,
    encodedCommandDecodesToItself (.setParamDepth 0x40000000) [] rfl,
    encodedCommandDecodesToItself (.setParamNone 7 0) [] rfl, encodedCommandDecodesToItself (.process 4) [] rfl,
    encodedCommandDecodesToItself (.readReg .f) [] rfl, encodedCommandDecodesToItself (.readReg .status) [] rfl,
    by decide, by decide⟩

namespace Machine

/-! ## The step -/

/-- An illegal header is taken alone (R71, 60_exceptions R124). -/
theorem step_of_illegal {s : State} {why : IllegalHeader} {rest : List Word} (hm : s.mode ≠ .halted) (hidle : s.idle)
    (hd : decodeCommand s.cmdPort = .illegal why rest) :
    step s = .next ((s.took rest).raiseFault .illegalCommand) := by
  obtain ⟨hf, ho⟩ := hidle
  rw [step, State.activity_decodes hf ho hm, hd, activityOf]

/-- Settles O4: the decoder answers an illegal header by itself, and the step takes it. -/
theorem illegalHeaderHaltsTheCore : Obligations.IllegalHeaderHaltsTheCore := by
  intro s h rest hm hf ho hport hh
  obtain ⟨why, hwhy⟩ := decodeHeader_of_isIllegalHeader hh
  exact step_of_illegal hm ⟨hf, ho⟩ (by rw [hport, decodeCommand, hwhy])

/-- Settles O6: the lemma about a step of an idle core, in the statement's own terms. -/
theorem stepRunsTheDecodedCommand : Obligations.StepRunsTheDecodedCommand :=
  fun _ _ _ hm hf ho hd => step_of_decoded hm ⟨hf, ho⟩ hd

end Machine
end Sys2Proof
end

section
/-! SUPPORT. Quotients and sums of words with a clear sign bit, as the phase of the oscillator takes them, and evaluated
operations. -/

namespace Sys2Proof.F32

/-- An operation that answers a number for one quiet NaN argument answers it for every NaN argument. -/
theorem eq_of_quiet {op : Word → Word} (h : (∀ n, op n = n) ∨ ∃ w, ∀ n, op n = w) {w : Word}
    (hq : op 0x7FC00000 = w) (hw : isNaN w = false) (nan : Word) : op nan = w :=
  (eq_of_nan_or h (by decide) (by rwa [hq]) nan).trans hq

/-! ## Words from their values -/

/-- A word with the sign and the magnitude of a finite word is that word. -/
theorem eq_of_sign_of_mag {v w : Word} (hw : isFinite w = true) (hs : sign v = sign w) (hm : mag v = mag w) :
    v = w := by
  have hv : isFinite v = true := by
    by_contra hf
    exact absurd (hm ▸ overflow_le_mag (Bool.eq_false_iff.2 hf)) (Nat.not_le.2 (mag_lt_overflow hw))
  rw [← round_mag (isNaN_of_isFinite hv), hs, hm, round_mag (isNaN_of_isFinite hw)]

theorem val_nonneg {w : Word} (hs : sign w = false) : 0 ≤ val w := by
  rw [val_eq_mag hs]
  exact Int.natCast_nonneg _

theorem sign_of_val_pos {w : Word} (h : 0 < val w) : sign w = false := by
  cases hs : sign w with
  | false => rfl
  | true =>
    rw [val, hs, if_pos rfl] at h
    omega

theorem isZero_of_val_pos {w : Word} (h : 0 < val w) : isZero w = false := by
  refine decide_eq_false fun hz => ?_
  rw [val_eq_mag (sign_of_val_pos h), mag, hz] at h
  exact absurd h (by decide)

theorem val_lt_val_iff {v w : Word} (hv : v.toNat ≤ 0x7F800000) (hw : w.toNat ≤ 0x7F800000) :
    val v < val w ↔ v.toNat < w.toNat := by
  rw [← Int.not_le, val_le_val_iff hw hv, Nat.not_le]

/-- Below a finite word by value is below it by bits, where the sign bit is clear. -/
theorem toNat_le_of_val_le {w q : Word} (hs : sign w = false) (hq : q.toNat < 0x7F800000) (h : val w ≤ val q) :
    w.toNat ≤ q.toNat := by
  have hf : isFinite w = true :=
    isFinite_of_val_le (lo := zero) (by decide) (isFinite_of_toNat_lt hq) (val_zero ▸ val_nonneg hs) h
  exact (val_le_val_iff (toNat_lt_of_isFinite hs hf).le hq.le).1 h

/-- `fge` with 1.0 fails below 1.0 and on a NaN. -/
theorem ge_one_eq_false {w : Word} (h : w.toNat < 0x3F800000 ∨ isNaN w = true) : ge w one = false := by
  rw [Bool.eq_false_iff, ne_eq]
  rcases h with hlt | hnan
  · rw [ge_one_iff (by omega)]
    omega
  · rw [ge_iff, hnan]
    simp

theorem representable_mag {w : Word} (h : isFinite w = true) : Representable (mag w) :=
  ⟨_, (isFinite_iff.1 h).le, rfl⟩

/-- The floor of a word in [1, 2) is 1.0. -/
theorem floor_eq_one {w : Word} (h1 : 0x3F800000 ≤ w.toNat) (h2 : w.toNat < 0x40000000) : floor w = one := by
  obtain ⟨hsign, hmag⟩ := floor_exact h1 (by omega)
  have hs : sign w = false := sign_eq_false_iff.2 (by omega)
  have hlo : val one ≤ val w := (val_le_val_iff (by decide) (by omega)).2 h1
  have hhi : val w < val 0x40000000 := (val_lt_val_iff (by omega) (by decide)).2 h2
  have htwo : val 0x40000000 = (2 * unit : Nat) := by decide
  rw [val_eq_mag hs, val_one, Int.ofNat_le] at hlo
  rw [val_eq_mag hs, htwo, Int.ofNat_lt] at hhi
  refine eq_of_sign_of_mag (by decide) hsign ?_
  rw [hmag, Nat.div_eq_of_lt_le (k := 1) (by rwa [Nat.one_mul]) hhi]
  decide

/-! ## Quotients -/

/-- The bits of a quotient of a word with a clear sign bit by a positive one. -/
theorem toNat_div {a b : Word} (ha : a.toNat < 0x7F800000) (hb : isFinite b = true) (hpos : 0 < val b) (nan : Word) :
    (div nan a b).toNat = roundMag (mag a * unit) (mag b) := by
  have hs : sign a = false := sign_eq_false_iff.2 (by omega)
  rw [div_of_isFinite (isFinite_of_toNat_lt ha) hb nan (isZero_of_val_pos hpos), hs, sign_of_val_pos hpos, round,
    pack_toNat (roundMag_lt _ _)]
  exact Nat.zero_add _

theorem zero_div {b : Word} (hb : isFinite b = true) (hpos : 0 < val b) (nan : Word) : div nan zero b = zero := by
  apply BitVec.eq_of_toNat_eq
  rw [toNat_div (by decide) hb hpos, show mag zero * unit = 0 by decide, roundMag_zero]
  rfl

/-- A quotient rises with its dividend. -/
theorem toNat_div_mono {a a' b : Word} (ha' : a'.toNat < 0x7F800000) (hle : a.toNat ≤ a'.toNat)
    (hb : isFinite b = true) (hpos : 0 < val b) (nan nan' : Word) :
    (div nan a b).toNat ≤ (div nan' a' b).toNat := by
  have ha : a.toNat < 0x7F800000 := hle.trans_lt ha'
  have hmag : mag a ≤ mag a' := by
    rw [mag, mag, Nat.mod_eq_of_lt (by omega), Nat.mod_eq_of_lt (by omega)]
    exact (magOfBits_le_iff ha.le ha'.le).2 hle
  have hb0 : 0 < mag b := mag_pos_of_not_isZero (isZero_of_val_pos hpos)
  rw [toNat_div ha hb hpos, toNat_div ha' hb hpos]
  exact roundMag_mono hb0 hb0 (Nat.mul_le_mul_right _ (Nat.mul_le_mul_right _ hmag))

/-! ## Sums -/

/-- Adding a zero of either sign keeps the value of a finite word, and the word itself where its sign bit is clear. -/
theorem add_of_val_eq_zero {a z : Word} (ha : isFinite a = true) (hz : isFinite z = true) (h0 : val z = 0)
    (nan : Word) : val (add nan a z) = val a ∧ (sign a = false → add nan a z = a) := by
  have hsum : val a + val z = val a := by rw [h0, Int.add_zero]
  have hval : val (add nan a z) = val a := by
    rw [val_add_of_representable ha hz (by rw [hsum, natAbs_val]; exact representable_mag ha), hsum]
  refine ⟨hval, fun hs => ?_⟩
  have hsign : sign (add nan a z) = sign a := by
    rw [hs]
    exact sign_add_eq_false ha hz hs (by rw [hsum]; exact val_nonneg hs) nan
  refine eq_of_sign_of_mag ha hsign ?_
  rw [← natAbs_val, hval, natAbs_val]

section
variable {p i : Word} (hp : p.toNat < 0x7F800000) (hi : i.toNat < 0x7F800000)
include hp hi

theorem sign_add_of_toNat_lt (nan : Word) : sign (add nan p i) = false := by
  have hps : sign p = false := sign_eq_false_iff.2 (by omega)
  have his : sign i = false := sign_eq_false_iff.2 (by omega)
  exact sign_add_eq_false (isFinite_of_toNat_lt hp) (isFinite_of_toNat_lt hi) hps
    (Int.add_nonneg (val_nonneg hps) (val_nonneg his)) nan

/-- A sum has its bits at most those of a finite word that bounds its exact value. -/
theorem toNat_add_le {q : Word} (hq : q.toNat < 0x7F800000) (h : val p + val i ≤ val q) (nan : Word) :
    (add nan p i).toNat ≤ q.toNat := by
  have hnear := add_isNearestEven (isFinite_of_toNat_lt hp) (isFinite_of_toNat_lt hi) nan
  refine toNat_le_of_val_le (sign_add_of_toNat_lt hp hi nan) hq ?_
  exact hnear.val_le Int.one_pos (isNaN_of_isFinite (isFinite_of_toNat_lt hq)) (by rwa [Int.mul_one])

end

/-- A phase below 1.0 and an increment of at most 0.5 give a sum of at most 1.5. -/
theorem toNat_add_lt_two {p i : Word} (hp : p.toNat < 0x3F800000) (hi : i.toNat ≤ 0x3F000000) (nan : Word) :
    (add nan p i).toNat < 0x40000000 := by
  have hpv : val p ≤ val one := (val_le_val_iff (by omega) (by decide)).2 hp.le
  have hiv : val i ≤ val 0x3F000000 := (val_le_val_iff (by omega) (by decide)).2 hi
  have htop : val one + val 0x3F000000 = val 0x3FC00000 := by decide
  have hle : (add nan p i).toNat ≤ (0x3FC00000 : Word).toNat :=
    toNat_add_le (by omega) (by omega) (by decide) (by omega) nan
  exact hle.trans_lt (by decide)

/-- A phase below 1.0 and an increment below 2^-25, half the gap between 1.0 and the word before it, give a sum below
1.0: that word is nearer to the exact sum than 1.0 is. -/
theorem toNat_add_lt_one {p i : Word} (hp : p.toNat < 0x3F800000) (hi : i.toNat < 0x33000000) (nan : Word) :
    (add nan p i).toNat < 0x3F800000 := by
  have hpv : val p ≤ val 0x3F7FFFFF := (val_le_val_iff (by omega) (by decide)).2 (Nat.le_of_lt_succ hp)
  have hiv : val i < val 0x33000000 := (val_lt_val_iff (by omega) (by decide)).2 hi
  have hgap : val one = val 0x3F7FFFFF + 2 * val 0x33000000 := by decide
  have hpos : 0 < val 0x33000000 := by decide
  have hle : (add nan p i).toNat ≤ one.toNat := toNat_add_le (by omega) (by omega) (by decide) (by omega) nan
  refine lt_of_le_of_ne hle fun hone => ?_
  have hnear := (add_isNearestEven (isFinite_of_toNat_lt (w := p) (by omega)) (isFinite_of_toNat_lt (w := i) (by omega))
    nan 0x3F7FFFFF (by decide)).1
  rw [BitVec.eq_of_toNat_eq (y := one) hone] at hnear
  omega

end Sys2Proof.F32
end

section
/-! SUPPORT. The oscillator's part of a frame, with a wrap event and without one, and the wrap events of a block. -/

namespace Sys2Proof.Machine

/-! ## The oscillator's part of a frame -/

theorem State.oscAdvance_phase (s : State) : s.oscAdvance.phase =
    F32.add (s.nan 1) s.phase (F32.div (s.nan 0) s.rate s.cfg.sampleRate) := rfl

/-- What the oscillator writes where the frame has a wrap event (R81 to R83). -/
theorem State.oscillate_of_wraps {s : State} (h : s.wraps = true) : s.oscillate =
    { s with
      phase := F32.sub (s.nan 2) s.oscAdvance.phase (F32.floor s.oscAdvance.phase), wrap := true,
      f := F32.add (s.nan 4) s.cfg.centreFrequency (F32.mul (s.nan 3) (s.memRead s.tableIndex) s.effectDepth),
      tableIndex := (s.tableIndex + 1) &&& s.cfg.tableMask, nanDraws := s.nanDraws + 5 } := by
  rw [wraps] at h
  rw [oscillate, oscAdvance_writes]
  generalize s.oscAdvance.phase = p at h ⊢
  simp only [wrapTest, wrapDraw, indexStep, h, nan, drew, memRead, Nat.add_assoc, Nat.reduceAdd, if_true]

/-- Without a wrap event it writes PHASE alone. -/
theorem State.oscillate_of_not_wraps {s : State} (h : s.wraps = false) : s.oscillate =
    { s with phase := s.oscAdvance.phase, wrap := false, nanDraws := s.nanDraws + 3 } := by
  rw [wraps] at h
  rw [oscillate, oscAdvance_writes]
  generalize s.oscAdvance.phase = p at h ⊢
  simp only [wrapTest, wrapDraw, indexStep, h, drew, Bool.false_eq_true, if_false]

theorem State.oscillate_tableIndex (s : State) : s.oscillate.tableIndex =
    if s.wraps then (s.tableIndex + 1) &&& s.cfg.tableMask else s.tableIndex := by
  cases hw : s.wraps with
  | true => rw [oscillate_of_wraps hw]; rfl
  | false => rw [oscillate_of_not_wraps hw]; rfl

/-! ## What the oscillator does not read -/

theorem State.wraps_withFramesLeft (s : State) (n : BitVec 32) : ({ s with framesLeft := n } : State).wraps = s.wraps :=
  rfl

theorem State.wraps_withTable (s : State) (table : Memory) : ({ s with table := table } : State).wraps = s.wraps := rfl

theorem State.oscillate_withFramesLeft (s : State) (n : BitVec 32) :
    ({ s with framesLeft := n } : State).oscillate = { s.oscillate with framesLeft := n } := by
  cases hw : s.wraps with
  | true => rw [oscillate_of_wraps hw, oscillate_of_wraps ((wraps_withFramesLeft s n).trans hw)]; rfl
  | false => rw [oscillate_of_not_wraps hw, oscillate_of_not_wraps ((wraps_withFramesLeft s n).trans hw)]; rfl

/-- Of the table it reads the entry at TABLE_INDEX alone (R82). -/
theorem State.oscillate_withTable {s : State} {table : Memory}
    (h : Memory.read table s.tableIndex.toNat = Memory.read s.table s.tableIndex.toNat) :
    ({ s with table := table } : State).oscillate = { s.oscillate with table := table } := by
  cases hw : s.wraps with
  | true =>
    rw [oscillate_of_wraps hw, oscillate_of_wraps ((wraps_withTable s table).trans hw)]
    simp only [memRead, h]
    rfl
  | false => rw [oscillate_of_not_wraps hw, oscillate_of_not_wraps ((wraps_withTable s table).trans hw)]; rfl

theorem State.filter_withFramesLeft (s : State) (n : BitVec 32) (x : Word) :
    ({ s with framesLeft := n } : State).coefDerive.svfStep x = { s.coefDerive.svfStep x with framesLeft := n } := rfl

theorem State.filter_withTable (s : State) (table : Memory) (x : Word) :
    ({ s with table := table } : State).coefDerive.svfStep x = { s.coefDerive.svfStep x with table := table } := rfl

theorem State.frameRegisters_withFramesLeft (s : State) (n : BitVec 32) (x : Word) :
    ({ s with framesLeft := n } : State).frameRegisters x = { s.frameRegisters x with framesLeft := n } := by
  simp only [frameRegisters, oscillate_withFramesLeft, filter_withFramesLeft]

theorem State.frameRegisters_withTable {s : State} {table : Memory}
    (h : Memory.read table s.tableIndex.toNat = Memory.read s.table s.tableIndex.toNat) (x : Word) :
    ({ s with table := table } : State).frameRegisters x = { s.frameRegisters x with table := table } := by
  simp only [frameRegisters, oscillate_withTable h, filter_withTable]

section
variable (s : State) (mL mR sL sR : Word) (rest : List Word)

theorem State.runFrame_withFramesLeft (n : BitVec 32) :
    ({ s with framesLeft := n } : State).runFrame mL mR sL sR rest =
      { s.runFrame mL mR sL sR rest with framesLeft := n - 1 } := by
  have h := frameRegisters_withFramesLeft { s with sampleIn := rest } n mL
  simp only [runFrame, frameStep, h]
  rfl

/-! ## One frame -/

@[simp] theorem State.frameRegisters_tableIndex (x : Word) :
    (s.frameRegisters x).tableIndex = s.oscillate.tableIndex := by
  unfold frameRegisters
  rw [svfStep_writes, coefDerive_writes]

theorem State.runFrame_tableIndex : (s.runFrame mL mR sL sR rest).tableIndex =
    if s.wraps then (s.tableIndex + 1) &&& s.cfg.tableMask else s.tableIndex := by
  simp only [runFrame, frameStep, streamOut, frameRegisters_withSampleIn, frameRegisters_tableIndex,
    oscillate_tableIndex]

variable {s} (h : s.wraps = false)
include h

theorem State.runFrame_phase_of_not_wraps : (s.runFrame mL mR sL sR rest).phase = s.oscAdvance.phase := by
  rw [runFrame_phase]
  exact if_neg (Bool.eq_false_iff.1 h)

theorem State.runFrame_f_of_not_wraps : (s.runFrame mL mR sL sR rest).f = s.f := by
  rw [runFrame_f, wrapDraw_f]
  exact if_neg (Bool.eq_false_iff.1 h)

theorem State.runFrame_tableIndex_of_not_wraps : (s.runFrame mL mR sL sR rest).tableIndex = s.tableIndex := by
  rw [runFrame_tableIndex, h]
  rfl

end

/-- A phase that stays below 1.0 when it advances makes no wrap event. -/
theorem State.wraps_of_phase_lt {s : State} (h : s.oscAdvance.phase.toNat < 0x3F800000) : s.wraps = false := by
  rw [wraps]
  exact F32.ge_one_eq_false (.inl h)

/-! ## Blocks -/

/-- A PROCESS that runs at once, and one that a step resumes, is the frame loop from some FRAMES_LEFT on. -/
theorem continueProcess_of_block {s t : State}
    (h : (∃ frames, s.mode = .ready ∧ exec (.process frames) s = .next t) ∨ (s.framesLeft ≠ 0 ∧ step s = .next t)) :
    ∃ frames, t = ({ s with framesLeft := frames } : State).continueProcess := by
  rcases h with ⟨frames, hm, he⟩ | ⟨hf, hs⟩
  · rw [exec_process_of_ready hm] at he
    cases he
    exact ⟨frames, rfl⟩
  · rw [step_resume hf] at hs
    cases hs
    exact ⟨s.framesLeft, rfl⟩

/-- Frames that keep a property under which none of them wraps leave F and TABLE_INDEX as they are. -/
theorem runFrames_keeps_target {P : State → Prop} (hwraps : ∀ s, P s → s.wraps = false)
    (hframe : ∀ s mL mR sL sR rest, P s → P (s.runFrame mL mR sL sR rest)) (k : Nat) {s : State} (h : P s) :
    P (runFrames k s) ∧ (runFrames k s).f = s.f ∧ (runFrames k s).tableIndex = s.tableIndex := by
  refine runFrames_keeps (P := fun u => P u ∧ u.f = s.f ∧ u.tableIndex = s.tableIndex) ?_ k s ⟨h, rfl, rfl⟩
  rintro u mL mR sL sR rest - ⟨hu, hf, hindex⟩
  have hw := hwraps u hu
  exact ⟨hframe u mL mR sL sR rest hu, (State.runFrame_f_of_not_wraps mL mR sL sR rest hw).trans hf,
    (State.runFrame_tableIndex_of_not_wraps mL mR sL sR rest hw).trans hindex⟩

/-! ## Counting the wrap events -/

theorem wrapCount_cons {s : State} {mL mR sL sR : Word} {rest : List Word}
    (h : s.sampleIn = mL :: mR :: sL :: sR :: rest) (k : Nat) :
    wrapCount (k + 1) s = (if s.wraps then 1 else 0) + wrapCount k (s.runFrame mL mR sL sR rest) := by
  rw [wrapCount, h]

theorem wrapCount_starved {s : State} (h : s.sampleIn.length < 4) (k : Nat) : wrapCount k s = 0 := by
  cases k with
  | zero => rfl
  | succ k =>
    unfold wrapCount
    split
    · next e =>
      simp only [e, List.length_cons] at h
      omega
    · rfl

/-- The count does not depend on FRAMES_LEFT. -/
theorem wrapCount_withFramesLeft : ∀ (k : Nat) (s : State) (n : BitVec 32),
    wrapCount k { s with framesLeft := n } = wrapCount k s
  | 0, _, _ => rfl
  | k + 1, s, n => by
    rcases frame_or_starved s.sampleIn with ⟨mL, mR, sL, sR, rest, e⟩ | hstarved
    · rw [wrapCount_cons e, wrapCount_cons (s := { s with framesLeft := n }) e, State.runFrame_withFramesLeft,
        wrapCount_withFramesLeft k]
      rfl
    · rw [wrapCount_starved hstarved, wrapCount_starved (s := { s with framesLeft := n }) hstarved]

/-- A loop with no wrap event leaves F and TABLE_INDEX as they are. -/
theorem runFrames_of_wrapCount_zero : ∀ (k : Nat) (s : State), wrapCount k s = 0 →
    (runFrames k s).f = s.f ∧ (runFrames k s).tableIndex = s.tableIndex
  | 0, _, _ => ⟨rfl, rfl⟩
  | k + 1, s, h => by
    rcases frame_or_starved s.sampleIn with ⟨mL, mR, sL, sR, rest, e⟩ | hstarved
    · rw [wrapCount_cons e, Nat.add_eq_zero_iff] at h
      obtain ⟨hfirst, hlater⟩ := h
      have hw : s.wraps = false := by simpa using hfirst
      obtain ⟨hf, hindex⟩ := runFrames_of_wrapCount_zero k _ hlater
      rw [runFrames_cons e, hf, hindex]
      exact ⟨State.runFrame_f_of_not_wraps mL mR sL sR rest hw,
        State.runFrame_tableIndex_of_not_wraps mL mR sL sR rest hw⟩
    · rw [runFrames_starved hstarved]
      exact ⟨rfl, rfl⟩

/-- INDEX_STEP under the mask 0x3FF counts modulo 1024 (R83). -/
theorem toNat_indexStep (i : BitVec 10) : ((i + 1) &&& 0x3FF).toNat = (i.toNat + 1) % 1024 := by
  rw [show (0x3FF : BitVec 10) = BitVec.allOnes 10 by decide, BitVec.and_allOnes, BitVec.toNat_add]
  rfl

/-- TABLE_INDEX after a loop counts its wrap events modulo 1024 (R88). -/
theorem runFrames_tableIndex : ∀ (k : Nat) (s : State), s.cfg.tableMask = 0x3FF →
    (runFrames k s).tableIndex.toNat = (s.tableIndex.toNat + wrapCount k s) % 1024
  | 0, s, _ => (Nat.mod_eq_of_lt s.tableIndex.isLt).symm
  | k + 1, s, hmask => by
    rcases frame_or_starved s.sampleIn with ⟨mL, mR, sL, sR, rest, e⟩ | hstarved
    · rw [runFrames_cons e, runFrames_tableIndex k _ (by simpa using hmask), wrapCount_cons e,
        State.runFrame_tableIndex, hmask]
      split
      · rw [toNat_indexStep, Nat.mod_add_mod, Nat.add_assoc]
      · rw [Nat.zero_add]
    · rw [runFrames_starved hstarved, wrapCount_starved hstarved]
      exact (Nat.mod_eq_of_lt s.tableIndex.isLt).symm

end Sys2Proof.Machine
end

section
/-! PROOFS. The stepped random oscillator of 40_oscillator: how the phase advances and folds, what a wrap event draws, and
what a block with no wrap event leaves as it is. -/

namespace Sys2Proof.Machine

/-! ## The target frequency and the index -/

/-- A command other than INIT and PROCESS leaves F and TABLE_INDEX as they are. -/
theorem exec_keeps_target {i : Instr} {s t : State} (hinit : ∀ p a, i ≠ .init p a)
    (hprocess : ∀ frames, i ≠ .process frames) (h : exec i s = .next t) : t.f = s.f ∧ t.tableIndex = s.tableIndex := by
  cases exec_effect h with
  | unchanged => exact ⟨rfl, rfl⟩
  | responds w => exact ⟨rfl, rfl⟩
  | faults c _ _ => exact ⟨rfl, rfl⟩
  | initialises p a hi _ => exact absurd hi (hinit p a)
  | setsTime raw _ _ _ => exact ⟨rfl, rfl⟩
  | setsDepth raw _ _ _ => exact ⟨rfl, rfl⟩
  | processes frames hi _ => exact absurd hi (hprocess frames)

/-- Settles O29: a block is a frame loop, and one that counts no wrap event writes neither register. -/
theorem targetFrequencyChangesOnlyAtAWrap : Obligations.TargetFrequencyChangesOnlyAtAWrap := by
  refine ⟨fun frames s t hm he hcount => ?_, fun i s t hinit hprocess he => exec_keeps_target hinit hprocess he,
    fun s t hf hs hcount => ?_⟩
  · rw [exec_process_of_ready hm] at he
    cases he
    exact runFrames_of_wrapCount_zero _ { s with framesLeft := frames } ((wrapCount_withFramesLeft _ s _).trans hcount)
  · rw [step_resume hf] at hs
    cases hs
    exact runFrames_of_wrapCount_zero _ s hcount

/-- Settles O33, by the same loop, whose TABLE_INDEX counts its wrap events. -/
theorem tableIndexCountsTheWraps : Obligations.TableIndexCountsTheWraps := by
  refine ⟨fun frames s t hm hmask he => ?_, fun s t hf hmask hs => ?_⟩
  · rw [exec_process_of_ready hm] at he
    cases he
    rw [← wrapCount_withFramesLeft _ s frames]
    exact runFrames_tableIndex _ { s with framesLeft := frames } hmask
  · rw [step_resume hf] at hs
    cases hs
    exact runFrames_tableIndex _ s hmask

/-- Settles O34: WRAP_DRAW is the only reader of the table, and reads the entry at TABLE_INDEX. -/
theorem frameReadsAtMostOneEntry : Obligations.FrameReadsAtMostOneEntry := by
  intro s table mL mR sL sR rest hread
  have h := State.frameRegisters_withTable (s := { s with sampleIn := rest }) hread mL
  simp only [State.runFrame, State.frameStep, h]
  rfl

/-! ## The advance (R80) -/

/-- With a zero rate the advance adds +0.0 to a phase in [0, 1). -/
theorem State.oscAdvance_phase_of_rate_zero {s : State} (hsr : s.cfg.sampleRateOk = true) (hrate : s.rate = F32.zero)
    (hphase : s.phaseOk = true) : s.oscAdvance.phase = s.phase := by
  obtain ⟨hfin, hpos⟩ := Config.sampleRateOk_iff.1 hsr
  have hp : s.phase.toNat < 0x3F800000 := by simpa [phaseOk] using hphase
  rw [oscAdvance_phase, hrate, F32.zero_div hfin hpos]
  exact (F32.add_of_val_eq_zero (F32.isFinite_of_toNat_lt (by omega)) (by decide) F32.val_zero _).2
    (F32.sign_eq_false_iff.2 (by omega))

/-- Settles O30: the quotient rises with the rate, and at 20 Hz it is 0x39DA740E. -/
theorem phaseAdvancesByRateOverSampleRate : Obligations.PhaseAdvancesByRateOverSampleRate := by
  refine ⟨fun s => rfl, fun s hsr hrate => ?_, fun s hsr hrate hphase => ?_⟩
  · have hmono := F32.toNat_div_mono (a' := 0x41A00000) (b := 0x473B8000) (by decide) hrate (by decide) (by decide)
      (s.nan 0) 0
    have htop : F32.div 0 0x41A00000 0x473B8000 = 0x39DA740E := by decide
    have hinc : (F32.div (s.nan 0) s.rate s.cfg.sampleRate).toNat ≤ 0x39DA740E := by
      rw [htop] at hmono
      rw [hsr]
      exact hmono
    refine ⟨hinc, fun hphase => ?_⟩
    rw [State.oscAdvance_phase]
    exact F32.toNat_add_lt_two (by simpa [State.phaseOk] using hphase) (by omega) _
  · exact State.oscAdvance_phase_of_rate_zero hsr hrate hphase

/-! ## The fold (R81) -/

/-- A phase of at least 1.0, short of an infinity, wraps and is folded by its floor. -/
theorem State.wrapTest_of_one_le {s : State} (h1 : 0x3F800000 ≤ s.phase.toNat) (h2 : s.phase.toNat < 0x7F800000) :
    s.wrapTest.wrap = true ∧ s.wrapTest.phase = F32.sub (s.nan 0) s.phase (F32.floor s.phase) := by
  have hge := (F32.ge_one_iff h2).2 h1
  exact ⟨hge, if_pos hge⟩

theorem State.wrapTest_of_not_ge {s : State} (h : F32.ge s.phase F32.one = false) :
    s.wrapTest.wrap = false ∧ s.wrapTest.phase = s.phase :=
  ⟨h, if_neg (Bool.eq_false_iff.1 h)⟩

/-- Settles O31: the floor is exact, and so is the difference; in [1, 2) the floor is 1.0. -/
theorem wrapFoldsThePhaseExactly : Obligations.WrapFoldsThePhaseExactly := by
  refine ⟨fun s => rfl, fun s h1 h2 => ?_, fun s h => State.wrapTest_of_not_ge (F32.ge_one_eq_false h), fun s h => ?_,
    fun s h1 h2 => ?_, fun s hsr hrate hphase => ?_⟩
  · obtain ⟨hwrap, hfold⟩ := State.wrapTest_of_one_le h1 h2
    rw [hfold]
    exact ⟨hwrap, F32.sub_floor_exact h1 h2 _⟩
  · obtain ⟨hwrap, hfold⟩ := State.wrapTest_of_one_le (s := s) (by rw [h]; decide) (by rw [h]; decide)
    refine ⟨hwrap, ?_⟩
    rw [hfold, h, F32.floor_eq_one (by decide) (by decide)]
    exact F32.eq_of_quiet (F32.sub_nan_or _ _) (by decide) (by decide) _
  · obtain ⟨-, hfold⟩ := State.wrapTest_of_one_le h1 (by omega)
    rw [hfold, F32.floor_eq_one h1 h2]
  · have hadvance : s.oscAdvance.phase = 0x3F800124 := by
      rw [State.oscAdvance_phase, hphase, hrate, hsr,
        F32.eq_of_quiet (F32.div_nan_or 0x41A00000 0x473B8000) (w := 0x39DA740E) (by decide) (by decide)]
      exact F32.eq_of_quiet (F32.add_nan_or _ _) (by decide) (by decide) _
    obtain ⟨hwrap, hfold⟩ := State.wrapTest_of_one_le (s := s.oscAdvance) (by rw [hadvance]; decide)
      (by rw [hadvance]; decide)
    refine ⟨hwrap, ?_⟩
    rw [hfold, hadvance, F32.floor_eq_one (by decide) (by decide)]
    exact F32.eq_of_quiet (F32.sub_nan_or _ _) (by decide) (by decide) _

/-! ## The draw (R82 to R84) -/

/-- What the draw and the index step write where the frame has a wrap event. -/
theorem State.wrapDraw_indexStep_of_wrap {s : State} (h : s.wrap = true) : s.wrapDraw.indexStep =
    { s with
      f := F32.add (s.nan 1) s.cfg.centreFrequency (F32.mul (s.nan 0) (s.memRead s.tableIndex) s.effectDepth),
      tableIndex := (s.tableIndex + 1) &&& s.cfg.tableMask, nanDraws := s.nanDraws + 2 } := by
  simp only [wrapDraw, indexStep, h, drew, if_true]

theorem State.wrapDraw_indexStep_of_not_wrap {s : State} (h : s.wrap = false) : s.wrapDraw.indexStep = s := by
  simp only [wrapDraw, indexStep, h, Bool.false_eq_true, if_false]

/-- With EFFECT_DEPTH +0.0 the product is a zero of either sign, and the draw gives the centre. -/
theorem State.wrapDraw_f_of_effectDepth_zero {s : State} (hw : s.wrap = true) (hd : s.effectDepth = F32.zero)
    (hc : s.configOk = true) : F32.val s.wrapDraw.f = F32.val s.cfg.centreFrequency ∧
    (F32.sign s.cfg.centreFrequency = false → s.wrapDraw.f = s.cfg.centreFrequency) := by
  obtain ⟨hwf, htable⟩ := Bool.and_eq_true_iff.1 hc
  obtain ⟨-, -, -, -, -, hconv⟩ := Config.wellFormed_iff.1 hwf
  obtain ⟨-, hcentre, -⟩ := Config.isFinite_fMax hconv
  obtain ⟨hfin, hlo, hhi⟩ := F32.mul_between_neg (a := F32.zero) (by decide) (by decide)
    (Memory.read_between htable s.tableIndex.toNat) (s.nan 0)
  rw [F32.val_neg, F32.val_zero] at hlo
  rw [F32.val_zero] at hhi
  rw [wrapDraw_f, if_pos hw, hd]
  exact F32.add_of_val_eq_zero hcentre hfin (by omega) _

/-- Settles O32: the draw's formula and the index step under the mask; a zero product; the examples evaluated. -/
theorem wrapDrawsTheNextEntry : Obligations.WrapDrawsTheNextEntry := by
  refine ⟨fun s hw hmask => ?_, fun s hw => State.wrapDraw_indexStep_of_not_wrap hw,
    fun s hw hd hc => State.wrapDraw_f_of_effectDepth_zero hw hd hc,
    fun s hw hcentre => ⟨fun hentry hd => ?_, fun hentry hd => ?_⟩⟩
  · rw [State.wrapDraw_indexStep_of_wrap hw, hmask]
    exact ⟨rfl, toNat_indexStep s.tableIndex⟩
  · rw [State.wrapDraw_f, if_pos hw, hcentre, hentry, hd,
      F32.eq_of_quiet (F32.mul_nan_or 0xBF800000 0x44898000) (w := 0xC4898000) (by decide) (by decide)]
    exact F32.eq_of_quiet (F32.add_nan_or _ _) (by decide) (by decide) _
  · rw [State.wrapDraw_f, if_pos hw, hcentre, hentry, hd,
      F32.eq_of_quiet (F32.mul_nan_or 0x3F800000 0x44098000) (w := 0x44098000) (by decide) (by decide)]
    exact F32.eq_of_quiet (F32.add_nan_or _ _) (by decide) (by decide) _

/-! ## Ranges and blocks with no wrap event (R85, R87) -/

/-- Settles O35: the frame's bound on PHASE, with the comparisons of the statement read on values. -/
theorem phaseStaysBelowOne : Obligations.PhaseStaysBelowOne := by
  intro s mL mR sL sR rest hphase hf h0 hsr h1
  obtain ⟨hfin, -⟩ := Config.sampleRateOk_iff.1 hsr
  obtain ⟨-, -, hone⟩ := F32.ge_iff.1 h1
  exact State.runFrame_phaseOk hphase hf (F32.zero_le_iff.1 h0).2 hfin hone mL mR sL sR rest

/-- The oscillator stands still: a zero rate, a phase `p` in [0, 1) and a valid sample rate. -/
structure State.Frozen (p : Word) (s : State) : Prop where
  phase : s.phase = p
  phaseOk : s.phaseOk = true
  rate : s.rate = F32.zero
  sampleRate : s.cfg.sampleRateOk = true

theorem State.Frozen.oscAdvance_phase {p : Word} {s : State} (h : s.Frozen p) : s.oscAdvance.phase = s.phase :=
  oscAdvance_phase_of_rate_zero h.sampleRate h.rate h.phaseOk

theorem State.Frozen.wraps {p : Word} {s : State} (h : s.Frozen p) : s.wraps = false :=
  wraps_of_phase_lt (by rw [h.oscAdvance_phase]; exact of_decide_eq_true h.phaseOk)

theorem State.Frozen.runFrame {p : Word} {s : State} (h : s.Frozen p) (mL mR sL sR : Word) (rest : List Word) :
    (s.runFrame mL mR sL sR rest).Frozen p := by
  have hphase : (s.runFrame mL mR sL sR rest).phase = s.phase :=
    (runFrame_phase_of_not_wraps mL mR sL sR rest h.wraps).trans h.oscAdvance_phase
  exact ⟨hphase.trans h.phase, by rw [State.phaseOk, hphase]; exact h.phaseOk, by simpa using h.rate,
    by simpa using h.sampleRate⟩

/-- Settles O36: every frame of the block leaves the oscillator frozen. -/
theorem rateZeroFreezesTheOscillator : Obligations.RateZeroFreezesTheOscillator := by
  intro s t hrate hphase hsr hblock
  obtain ⟨frames, rfl⟩ := continueProcess_of_block hblock
  have hfrozen : State.Frozen s.phase { s with framesLeft := frames } := ⟨rfl, hphase, hrate, hsr⟩
  obtain ⟨h, hf, hindex⟩ := runFrames_keeps_target (fun _ h => h.wraps)
    (fun _ mL mR sL sR rest h => h.runFrame mL mR sL sR rest) (frameCount frames) hfrozen
  exact ⟨h.phase, hf, hindex⟩

/-- The phase is in [0, 1) and its increment below 2^-25. -/
structure State.Slow (s : State) : Prop where
  phaseOk : s.phaseOk = true
  increment : ∀ nan, (F32.div nan s.rate s.cfg.sampleRate).toNat < 0x33000000

theorem State.Slow.oscAdvance_phase_lt {s : State} (h : s.Slow) : s.oscAdvance.phase.toNat < 0x3F800000 := by
  rw [oscAdvance_phase]
  exact F32.toNat_add_lt_one (of_decide_eq_true h.phaseOk) (h.increment _) _

theorem State.Slow.wraps {s : State} (h : s.Slow) : s.wraps = false := wraps_of_phase_lt h.oscAdvance_phase_lt

theorem State.Slow.runFrame {s : State} (h : s.Slow) (mL mR sL sR : Word) (rest : List Word) :
    (s.runFrame mL mR sL sR rest).Slow where
  phaseOk := by
    rw [State.phaseOk, runFrame_phase_of_not_wraps mL mR sL sR rest h.wraps]
    exact decide_eq_true h.oscAdvance_phase_lt
  increment := by simpa using h.increment

/-- Settles O37: an increment below 2^-25 rounds to no phase of 1.0, so every frame keeps the phase below it. -/
theorem smallIncrementNeverWraps : Obligations.SmallIncrementNeverWraps := by
  intro s t hphase hinc hblock
  obtain ⟨frames, rfl⟩ := continueProcess_of_block hblock
  have hslow : State.Slow { s with framesLeft := frames } := ⟨hphase, hinc⟩
  obtain ⟨h, hf, hindex⟩ := runFrames_keeps_target (fun _ h => h.wraps)
    (fun _ mL mR sL sR rest h => h.runFrame mL mR sL sR rest) (frameCount frames) hslow
  exact ⟨h.phaseOk, hf, hindex⟩

end Sys2Proof.Machine
end

section
/-! SUPPORT. Products and quotients over every number, infinities with them, as the filter's coefficient takes them:
their signs, and that they rise with their operands. -/

namespace Sys2Proof.F32

/-! ## Order -/

theorem le_of_le_of_le {a b c : Word} (hab : le a b = true) (hbc : le b c = true) : le a c = true := by
  obtain ⟨ha, -, h1⟩ := le_iff.1 hab
  obtain ⟨-, hc, h2⟩ := le_iff.1 hbc
  exact le_iff.2 ⟨ha, hc, h1.trans h2⟩

theorem isNaN_infOf (s : Bool) : isNaN (infOf s) = false := by cases s <;> decide

theorem sign_infOf (s : Bool) : sign (infOf s) = s := sign_pack (by decide) s

/-- An infinity is the word of its sign. -/
theorem eq_infOf_of_isInf {w : Word} (h : isInf w = true) : w = infOf (sign w) := by
  have hbits : w.toNat % 2 ^ 31 = 0x7F800000 := by
    simp only [isInf, Bool.and_eq_true, decide_eq_true_eq] at h
    simp only [expo, frac] at h
    omega
  rw [infOf, ← hbits, pack_sign_bits]

/-- No number is above +infinity. -/
theorem le_infOf_false {w : Word} (h : isNaN w = false) : le w (infOf false) = true := by
  have hmag : mag w ≤ overflow := by
    rw [← magOfBits_inf]
    exact (magOfBits_le_iff (bits_le_of_not_nan h) (by decide)).2 (bits_le_of_not_nan h)
  have hinf : val (infOf false) = (overflow : Nat) := by rw [← magOfBits_inf]; decide
  have habs := natAbs_val w
  exact le_iff.2 ⟨h, isNaN_infOf _, by omega⟩

/-! ## Rounding a multiple of a number -/

/-- A multiple of a number that is not negative rounds to its rounded magnitude, be the number a zero of either sign. -/
theorem val_round_of_nonneg {a : Word} (h : 0 ≤ val a) (k d : Nat) :
    val (round (sign a) (k * mag a) d) = magOfBits (roundMag (k * mag a) d) := by
  rw [val_round]
  cases hs : sign a with
  | false => rfl
  | true =>
    have h0 : mag a = 0 := by
      rw [val_eq_signed, hs] at h
      simp only [signed, if_true] at h
      omega
    rw [h0, Nat.mul_zero, roundMag_zero]
    rfl

/-- A rounded multiple rises with the number. -/
theorem le_round_round {a a' : Word} {d : Nat} (hd : 0 < d) (h0 : 0 ≤ val a) (h : val a ≤ val a') (k : Nat) :
    le (round (sign a) (k * mag a) d) (round (sign a') (k * mag a') d) = true := by
  have hmag : mag a ≤ mag a' := by
    rw [← natAbs_val, ← natAbs_val]
    omega
  refine le_iff.2 ⟨isNaN_round _ _ _, isNaN_round _ _ _, ?_⟩
  rw [val_round_of_nonneg h0, val_round_of_nonneg (h0.trans h), Int.ofNat_le,
    magOfBits_le_iff (roundMag_le_inf _ _) (roundMag_le_inf _ _)]
  exact roundMag_mono hd hd (Nat.mul_le_mul_right _ (Nat.mul_le_mul_left _ hmag))

/-! ## Products with 2 pi -/

/-- 2 pi times a number is rounded from the magnitudes; an infinity's magnitude is large enough to round to infinity. -/
theorem mul_twoPi {f : Word} (h : isNaN f = false) (nan : Word) :
    mul nan twoPi f = round (sign f) (mag twoPi * mag f) unit := by
  cases hi : isInf f with
  | true =>
    rw [eq_infOf_of_isInf hi]
    cases sign f with
    | false => exact eq_of_quiet (mul_nan_or _ _) (by decide) (by decide) nan
    | true => exact eq_of_quiet (mul_nan_or _ _) (by decide) (by decide) nan
  | false =>
    rw [mul_of_isFinite (by decide) (isFinite_of_not h hi), show sign twoPi = false by decide, Bool.false_bne]

theorem le_mul_twoPi {f f' : Word} (h0 : le zero f = true) (h : le f f' = true) (nan nan' : Word) :
    le (mul nan twoPi f) (mul nan' twoPi f') = true := by
  obtain ⟨hf, hf', hval⟩ := le_iff.1 h
  rw [mul_twoPi hf, mul_twoPi hf']
  exact le_round_round (Nat.two_pow_pos _) (zero_le_iff.1 h0).2 hval _

theorem mul_twoPi_zero (nan : Word) : mul nan twoPi zero = zero :=
  eq_of_quiet (mul_nan_or _ _) (by decide) (by decide) nan

/-! ## Quotients by a positive number -/

section
variable {b : Word} (hb : isFinite b = true) (hpos : 0 < val b)
include hb hpos

/-- A number divided by a positive finite one is an infinity as it was, or rounded from the magnitudes. -/
theorem div_of_pos {a : Word} (ha : isNaN a = false) (nan : Word) : div nan a b =
    if isInf a then infOf (sign a) else round (sign a) (unit * mag a) (mag b) := by
  rw [Nat.mul_comm]
  simp [div, ha, isNaN_of_isFinite hb, isInf_of_isFinite hb, isZero_of_val_pos hpos, sign_of_val_pos hpos]

theorem isNaN_div_of_pos {a : Word} (ha : isNaN a = false) (nan : Word) : isNaN (div nan a b) = false := by
  rw [div_of_pos hb hpos ha]
  split
  · exact isNaN_infOf _
  · exact isNaN_round _ _ _

theorem sign_div_of_pos {a : Word} (ha : isNaN a = false) (nan : Word) : sign (div nan a b) = sign a := by
  rw [div_of_pos hb hpos ha]
  split
  · exact sign_infOf _
  · exact sign_round _ _ _

/-- A quotient rises with its dividend: up to a finite one by rounding, and none is above that of +infinity. -/
theorem le_div_div {a a' : Word} (h0 : le zero a = true) (h : le a a' = true) (nan nan' : Word) :
    le (div nan a b) (div nan' a' b) = true := by
  obtain ⟨ha, ha', hval⟩ := le_iff.1 h
  have hnonneg : 0 ≤ val a := (zero_le_iff.1 h0).2
  cases hi' : isInf a' with
  | true =>
    have hs' : sign a' = false := by
      by_contra hs
      have hnonneg' : 0 ≤ val a' := hnonneg.trans hval
      rw [eq_infOf_of_isInf hi', show sign a' = true by simpa using hs] at hnonneg'
      exact absurd hnonneg' (by decide)
    rw [div_of_pos hb hpos ha', hi', hs', if_pos rfl]
    exact le_infOf_false (isNaN_div_of_pos hb hpos ha nan)
  | false =>
    have hfin : isFinite a = true :=
      isFinite_of_val_le (lo := zero) (by decide) (isFinite_of_not ha' hi') (by rwa [val_zero]) hval
    rw [div_of_pos hb hpos ha, div_of_pos hb hpos ha', isInf_of_isFinite hfin, hi']
    exact le_round_round (mag_pos_of_not_isZero (isZero_of_val_pos hpos)) hnonneg hval _

end

/-! ## Zero products and zero sums -/

/-- A finite word times +0.0 is the zero of its sign. -/
theorem mul_zero_of_isFinite {a : Word} (ha : isFinite a = true) (nan : Word) : mul nan a zero = pack (sign a) 0 := by
  rw [mul_of_isFinite ha (by decide), show sign zero = false by decide, Bool.bne_false, show mag zero = 0 by decide,
    Nat.mul_zero, round, roundMag_zero]

/-- +0.0 and a finite word times +0.0 sum to +0.0, whatever the sign of the product. -/
theorem zero_add_mul_zero {a : Word} (ha : isFinite a = true) (nan nan' : Word) :
    add nan zero (mul nan' a zero) = zero := by
  rw [mul_zero_of_isFinite ha]
  cases sign a with
  | false => exact eq_of_quiet (add_nan_or _ _) (by decide) (by decide) nan
  | true => exact eq_of_quiet (add_nan_or _ _) (by decide) (by decide) nan

theorem sign_eq_decide_val_neg {w : Word} (h : val w ≠ 0) : sign w = decide (val w < 0) := by
  rw [val_eq_signed] at h ⊢
  cases hs : sign w with
  | false => simp [signed]
  | true =>
    rw [hs] at h
    simp only [signed, if_true] at h ⊢
    exact (decide_eq_true (by omega)).symm

/-- Taking +0.0 from a finite word leaves the word, a negative zero too. -/
theorem sub_zero_of_isFinite {w : Word} (hw : isFinite w = true) (nan : Word) : sub nan w zero = w := by
  have hneg : val (neg zero) = 0 := by decide
  rw [sub, add_of_isFinite hw (by decide), hneg, Int.add_zero]
  split
  · next h0 =>
    have hmag : mag w = 0 := by rw [← natAbs_val, h0]; rfl
    rw [← round_mag (isNaN_of_isFinite hw), hmag, sign_round]
    cases sign w with
    | false => decide
    | true => decide
  · next h0 => rw [← sign_eq_decide_val_neg h0, natAbs_val, round_mag (isNaN_of_isFinite hw)]

end Sys2Proof.F32
end

section
/-! SUPPORT. The filter's part of a frame: what its registers are after it, and which of them it does not read. -/

namespace Sys2Proof.Machine

/-! ## One frame -/

/-- A frame's coefficient is that of the F its oscillator leaves (41_filter R90). -/
theorem State.frameRegisters_f1 (s : State) (x : Word) : (s.frameRegisters x).f1 = s.oscillate.coefDerive.f1 := rfl

/-- The low-pass tap is made of the delays and the coefficient alone (R91). -/
theorem State.frameRegisters_l (s : State) (x : Word) : (s.frameRegisters x).l =
    F32.add (s.oscillate.coefDerive.nan 1) s.d2
      (F32.mul (s.oscillate.coefDerive.nan 0) s.oscillate.coefDerive.f1 s.d1) := by
  have h1 : s.oscillate.d1 = s.d1 := by rw [oscillate_writes]
  have h2 : s.oscillate.d2 = s.d2 := by rw [oscillate_writes]
  rw [← h1, ← h2]
  rfl

theorem State.runFrame_f1 (s : State) (mL mR sL sR : Word) (rest : List Word) :
    (s.runFrame mL mR sL sR rest).f1 = s.oscillate.coefDerive.f1 := by
  simp only [runFrame, frameStep, streamOut, frameRegisters_withSampleIn, frameRegisters_f1]

theorem State.runFrame_l (s : State) (mL mR sL sR : Word) (rest : List Word) :
    (s.runFrame mL mR sL sR rest).l = F32.add (s.oscillate.coefDerive.nan 1) s.d2
      (F32.mul (s.oscillate.coefDerive.nan 0) (s.runFrame mL mR sL sR rest).f1 s.d1) := by
  rw [runFrame_f1, ← frameRegisters_l s mL]
  simp only [runFrame, frameStep, streamOut, frameRegisters_withSampleIn]

/-- The filter step, given what its taps come to. -/
theorem State.svfStep_eq {s : State} {x l h b n : Word}
    (hl : F32.add (s.nan 1) s.d2 (F32.mul (s.nan 0) s.f1 s.d1) = l)
    (hh : F32.sub (s.nan 4) (F32.sub (s.nan 2) x l) (F32.mul (s.nan 3) s.q s.d1) = h)
    (hb : F32.add (s.nan 6) (F32.mul (s.nan 5) s.f1 h) s.d1 = b) (hn : F32.add (s.nan 7) h l = n) :
    s.svfStep x = { s with l := l, h := h, b := b, n := n, d1 := b, d2 := l, nanDraws := s.nanDraws + 8 } := by
  subst hl hh hb hn
  rfl

/-- From delays of +0.0 the step puts out +0.0 and passes a finite input to the high-pass tap as it is. -/
theorem State.svfStep_of_delays_zero {s : State} (hd1 : s.d1 = F32.zero) (hd2 : s.d2 = F32.zero)
    (hf1 : F32.isFinite s.f1 = true) (hq : F32.isFinite s.q = true) (hqs : F32.sign s.q = false) {x b n : Word}
    (hx : F32.isFinite x = true) (hb : F32.add (s.nan 6) (F32.mul (s.nan 5) s.f1 x) F32.zero = b)
    (hn : F32.add (s.nan 7) x F32.zero = n) : s.svfStep x =
      { s with l := F32.zero, h := x, b := b, n := n, d1 := b, d2 := F32.zero, nanDraws := s.nanDraws + 8 } := by
  refine svfStep_eq ?_ ?_ (hd1 ▸ hb) hn
  · rw [hd1, hd2, F32.zero_add_mul_zero hf1]
  · have hqd : F32.mul (s.nan 3) s.q s.d1 = F32.zero := by
      rw [hd1, F32.mul_zero_of_isFinite hq, hqs]
      rfl
    rw [hqd, F32.sub_zero_of_isFinite hx, F32.sub_zero_of_isFinite hx]

/-! ## The held registers -/

/-- Other words in the registers that the filter only writes: the four taps and F1. -/
def State.withHeld (s : State) (h b l n f1 : Word) : State := { s with h := h, b := b, l := l, n := n, f1 := f1 }

section
variable (s : State) (h b l n f1 : Word)

/-- The oscillator does not read them. -/
theorem State.oscillate_withHeld : (s.withHeld h b l n f1).oscillate = s.oscillate.withHeld h b l n f1 := by
  have hwraps : (s.withHeld h b l n f1).wraps = s.wraps := rfl
  cases hw : s.wraps with
  | true => rw [oscillate_of_wraps hw, oscillate_of_wraps (hwraps.trans hw)]; rfl
  | false => rw [oscillate_of_not_wraps hw, oscillate_of_not_wraps (hwraps.trans hw)]; rfl

/-- The filter writes all of them before it reads one. -/
theorem State.filter_withHeld (x : Word) :
    (s.withHeld h b l n f1).coefDerive.svfStep x = s.coefDerive.svfStep x := rfl

theorem State.frameRegisters_withHeld (x : Word) :
    (s.withHeld h b l n f1).frameRegisters x = s.frameRegisters x := by
  simp only [frameRegisters, oscillate_withHeld, filter_withHeld]

/-- A frame ends in the same state whatever they held. -/
theorem State.runFrame_withHeld (mL mR sL sR : Word) (rest : List Word) :
    (s.withHeld h b l n f1).runFrame mL mR sL sR rest = s.runFrame mL mR sL sR rest := by
  have hregs := frameRegisters_withHeld { s with sampleIn := rest } h b l n f1 mL
  simp only [withHeld] at hregs
  simp only [runFrame, frameStep, withHeld, hregs]

end

/-- So does a loop of at least one frame whose words are there. -/
theorem runFrames_withHeld {s : State} (hwords : 4 ≤ s.sampleIn.length) {k : Nat} (hk : k ≠ 0) (h b l n f1 : Word) :
    runFrames k (s.withHeld h b l n f1) = runFrames k s := by
  obtain ⟨k, rfl⟩ := Nat.exists_eq_succ_of_ne_zero hk
  obtain ⟨mL, mR, sL, sR, rest, e⟩ := (frame_or_starved s.sampleIn).resolve_right (by omega)
  rw [runFrames_cons e, runFrames_cons (s := s.withHeld h b l n f1) e, State.runFrame_withHeld]

end Sys2Proof.Machine
end

section
/-! PROOFS. The filter of 41_filter: its resonance, its coefficient, its step, and what of it carries over from frame to
frame. -/

namespace Sys2Proof.Machine

/-! ## The resonance (R97) -/

/-- Of the commands only INIT writes Q. -/
theorem exec_q {i : Instr} {s t : State} (h : exec i s = .next t) :
    t.q = s.q ∨ ((∃ p a, i = .init p a) ∧ t.q = s.cfg.qConst) := by
  cases exec_effect h with
  | unchanged => exact .inl rfl
  | responds w => exact .inl rfl
  | faults c _ _ => exact .inl rfl
  | initialises p a hi _ => exact .inr ⟨⟨p, a, hi⟩, rfl⟩
  | setsTime raw _ _ _ => exact .inl rfl
  | setsDepth raw _ _ _ => exact .inl rfl
  | processes frames _ _ => exact .inl (State.continueProcess_q _)

/-- Settles O28: of the ways a step can end only a command taken can be INIT; the filter step copies Q. -/
theorem qIsWrittenOnlyByInit : Obligations.QIsWrittenOnlyByInit := by
  refine ⟨fun s t hs => ?_, fun s x => ⟨rfl, rfl⟩⟩
  rcases step_cases hs with ⟨-, rfl⟩ | ⟨i, rest, ha, he⟩ | ⟨rest, -, rfl⟩ | ⟨rest, -, rfl⟩ | ⟨-, rfl⟩
  · exact .inl s.continueProcess_q
  · rcases exec_q (s := s.took rest) he with hq | ⟨⟨p, a, rfl⟩, hq⟩
    · exact .inl hq
    · exact .inr ⟨⟨p, a, rest, ha⟩, hq⟩
  · exact .inl rfl
  · exact .inl rfl
  · exact .inl rfl

/-! ## The coefficient (R90, R98) -/

theorem State.coefDerive_f1 (s : State) : s.coefDerive.f1 =
    F32.div (s.nan 1) (F32.mul (s.nan 0) F32.twoPi s.f) s.cfg.sampleRate := rfl

/-- F1 of a target frequency whose product with 2 pi and whose quotient are known numbers. -/
theorem State.coefDerive_f1_eq {s : State} {f sr p w : Word} (hsr : s.cfg.sampleRate = sr) (hf : s.f = f)
    (hmul : F32.mul 0x7FC00000 F32.twoPi f = p) (hp : F32.isNaN p = false)
    (hdiv : F32.div 0x7FC00000 p sr = w) (hw : F32.isNaN w = false) : s.coefDerive.f1 = w := by
  rw [coefDerive_f1, hsr, hf, F32.eq_of_quiet (F32.mul_nan_or _ _) hmul hp]
  exact F32.eq_of_quiet (F32.div_nan_or _ _) hdiv hw _

/-- F1 rises with F: the product rises with F, and the quotient with the product. -/
theorem State.coefDerive_f1_mono {s t : State} (hok : s.cfg.sampleRateOk = true)
    (hsr : t.cfg.sampleRate = s.cfg.sampleRate) (h0 : F32.le F32.zero s.f = true) (h : F32.le s.f t.f = true) :
    F32.le s.coefDerive.f1 t.coefDerive.f1 = true := by
  obtain ⟨hfin, hpos⟩ := Config.sampleRateOk_iff.1 hok
  have hproduct : F32.le F32.zero (F32.mul (s.nan 0) F32.twoPi s.f) = true := by
    have hzero := F32.le_mul_twoPi (f := F32.zero) (by decide) h0 (s.nan 0) (s.nan 0)
    rwa [F32.mul_twoPi_zero] at hzero
  rw [coefDerive_f1, coefDerive_f1, hsr]
  exact F32.le_div_div hfin hpos hproduct (F32.le_mul_twoPi h0 h _ _) _ _

/-- F1 at 100 Hz and at 2300 Hz, at the default sample rate. -/
theorem State.coefDerive_f1_ends {s : State} (hsr : s.cfg.sampleRate = 0x473B8000) :
    (s.f = 0x42C80000 → s.coefDerive.f1 = 0x3C567750) ∧ (s.f = 0x450FC000 → s.coefDerive.f1 = 0x3E9A25C1) :=
  ⟨fun hf => coefDerive_f1_eq (p := 0x441D1463) hsr hf (by decide) (by decide) (by decide) (by decide),
    fun hf => coefDerive_f1_eq (p := 0x4661CD4E) hsr hf (by decide) (by decide) (by decide) (by decide)⟩

/-- Settles O39: F1 rises with F, so between the two ends it lies between the values there. -/
theorem coefficientStaysInRange : Obligations.CoefficientStaysInRange := by
  refine ⟨fun s t => State.coefDerive_f1_mono, fun s hsr hlo hhi => ?_⟩
  have hok : s.cfg.sampleRateOk = true := by rw [Config.sampleRateOk, hsr]; decide
  have h0 : F32.le F32.zero 0x42C80000 = true := by decide
  have h100 := (State.coefDerive_f1_ends (s := { s with f := 0x42C80000 }) hsr).1 rfl
  have h2300 := (State.coefDerive_f1_ends (s := { s with f := 0x450FC000 }) hsr).2 rfl
  rw [← h100, ← h2300]
  exact ⟨State.coefDerive_f1_mono (s := { s with f := 0x42C80000 }) hok rfl h0 hlo,
    State.coefDerive_f1_mono (t := { s with f := 0x450FC000 }) hok rfl (F32.le_of_le_of_le h0 hlo) hhi⟩

/-- Settles O38: the formula; a zero product and its quotient; the sign of the product, which no NaN is, kept by the
quotient; the examples evaluated. -/
theorem coefficientFollowsTheTargetFrequency : Obligations.CoefficientFollowsTheTargetFrequency := by
  refine ⟨fun s => rfl, fun s hok hf => ?_, fun s hok hf => ?_, fun nan => ⟨?_, ?_, ?_, ?_⟩, fun s hsr => ?_,
    fun s x => ⟨rfl, rfl⟩⟩
  · obtain ⟨hfin, hpos⟩ := Config.sampleRateOk_iff.1 hok
    rw [State.coefDerive_f1, hf, F32.mul_twoPi_zero, F32.zero_div hfin hpos]
  · obtain ⟨hfin, hpos⟩ := Config.sampleRateOk_iff.1 hok
    rw [State.coefDerive_f1, F32.mul_twoPi hf, F32.sign_div_of_pos hfin hpos (F32.isNaN_round _ _ _), F32.sign_round]
  · exact F32.eq_of_quiet (F32.mul_nan_or _ _) (by decide) (by decide) nan
  · exact F32.eq_of_quiet (F32.mul_nan_or _ _) (by decide) (by decide) nan
  · exact F32.eq_of_quiet (F32.mul_nan_or _ _) (by decide) (by decide) nan
  · exact F32.eq_of_quiet (F32.mul_nan_or _ _) (by decide) (by decide) nan
  · obtain ⟨h100, h2300⟩ := State.coefDerive_f1_ends hsr
    refine ⟨fun hf => ?_, h100, h2300, fun hf => ?_, fun hf => ?_⟩
    · exact State.coefDerive_f1_eq (p := 0x45EB9E95) hsr hf (by decide) (by decide) (by decide) (by decide)
    · exact State.coefDerive_f1_eq (p := 0x462BCE4C) hsr hf (by decide) (by decide) (by decide) (by decide)
    · exact State.coefDerive_f1_eq hsr hf rfl (by decide) (by decide) (by decide)

/-! ## The step (R91) -/

/-- Settles O40: the step's formulas, and its two examples from delays of +0.0. -/
theorem filterStepIsTheChamberlinStep : Obligations.FilterStepIsTheChamberlinStep := by
  refine ⟨fun s x => ⟨_, _, _, _, rfl, rfl, rfl, rfl, rfl⟩, fun s hd1 hd2 hf1 hq => ?_⟩
  have hf1fin : F32.isFinite s.f1 = true := by rw [hf1]; decide
  have hqfin : F32.isFinite s.q = true := by rw [hq]; decide
  have hqs : F32.sign s.q = false := by rw [hq]; decide
  refine ⟨State.svfStep_of_delays_zero hd1 hd2 hf1fin hqfin hqs (by decide) ?_ ?_,
    State.svfStep_of_delays_zero hd1 hd2 hf1fin hqfin hqs (by decide) ?_ ?_⟩
  · rw [hf1, F32.eq_of_quiet (F32.mul_nan_or 0x3E20D97C 0x3F800000) (w := 0x3E20D97C) (by decide) (by decide)]
    exact F32.eq_of_quiet (F32.add_nan_or _ _) (by decide) (by decide) _
  · exact F32.eq_of_quiet (F32.add_nan_or _ _) (by decide) (by decide) _
  · rw [hf1, F32.eq_of_quiet (F32.mul_nan_or 0x3E20D97C 0x80000000) (w := 0x80000000) (by decide) (by decide)]
    exact F32.eq_of_quiet (F32.add_nan_or _ _) (by decide) (by decide) _
  · exact F32.eq_of_quiet (F32.add_nan_or _ _) (by decide) (by decide) _

/-! ## What carries over (R93, R96) -/

/-- Settles O41: L, which fills both main words, is made without the input; with both delays +0.0 it is +0.0. -/
theorem outputLagsTheInputByOneFrame : Obligations.OutputLagsTheInputByOneFrame := by
  refine ⟨fun s x y mR sL sR rest => ?_, fun s x mR sL sR rest => s.runFrame_l x mR sL sR rest,
    fun s x mR sL sR rest hd1 hd2 hfin => ?_⟩
  · rw [State.runFrame_sampleOut, State.runFrame_sampleOut, State.runFrame_l, State.runFrame_l, State.runFrame_f1,
      State.runFrame_f1]
  · rw [State.runFrame_sampleOut, State.runFrame_l, hd1, hd2, F32.zero_add_mul_zero hfin]

/-- Settles O42: the first frame writes the held registers before it reads one. -/
theorem heldTapsChangeNothingLater : Obligations.HeldTapsChangeNothingLater := by
  intro frames h b l n f1 s hm hframes hwords
  have hk : frames.toNat ≠ 0 := fun h0 => hframes (BitVec.eq_of_toNat_eq h0)
  rw [exec_process_of_ready hm, exec_process_of_ready (s := { s with h := h, b := b, l := l, n := n, f1 := f1 }) hm]
  exact congrArg _ (runFrames_withHeld (s := { s with framesLeft := frames }) hwords hk h b l n f1)

end Sys2Proof.Machine
end

section
/-! SUPPORT. The frame loop of 42_process R100 cut in two, FRAMES_LEFT in it, one frame written out, and input streams
that differ in main-right words alone. -/

namespace Sys2Proof.Machine

/-! ## The loop cut in two (R100, R107) -/

/-- A loop of `j + k` frames is one of `j` followed by one of `k`; a loop that starves in the first stays starved. -/
theorem runFrames_add (k : Nat) : ∀ (j : Nat) (s : State), runFrames (j + k) s = runFrames k (runFrames j s)
  | 0, s => by rw [Nat.zero_add, runFrames]
  | j + 1, s => by
    rw [Nat.add_right_comm]
    rcases frame_or_starved s.sampleIn with ⟨mL, mR, sL, sR, rest, e⟩ | hstarved
    · rw [runFrames_cons e, runFrames_cons e, runFrames_add k j]
    · rw [runFrames_starved hstarved, runFrames_starved hstarved, runFrames_starved hstarved]

/-- The loop only counts FRAMES_LEFT down: what is added to it before is there after. -/
theorem runFrames_addFramesLeft (n : BitVec 32) : ∀ (k : Nat) (s : State),
    runFrames k { s with framesLeft := s.framesLeft + n } =
      { runFrames k s with framesLeft := (runFrames k s).framesLeft + n }
  | 0, _ => rfl
  | k + 1, s => by
    rcases frame_or_starved s.sampleIn with ⟨mL, mR, sL, sR, rest, e⟩ | hstarved
    · have hcount : s.framesLeft + n - 1 = (s.runFrame mL mR sL sR rest).framesLeft + n := by
        rw [State.runFrame_framesLeft]
        bv_omega
      rw [runFrames_cons e, ← runFrames_addFramesLeft n k,
        runFrames_cons (s := { s with framesLeft := s.framesLeft + n }) e, State.runFrame_withFramesLeft, hcount]
    · rw [runFrames_starved hstarved, runFrames_starved (s := { s with framesLeft := s.framesLeft + n }) hstarved]

/-! ## One frame written out (R101) -/

/-- What the oscillator writes, with a wrap event and without one (40_oscillator R80 to R84). -/
theorem State.oscillate_eq (s : State) : s.oscillate =
    { s with
      phase := if s.wraps then F32.sub (s.nan 2) s.oscAdvance.phase (F32.floor s.oscAdvance.phase)
        else s.oscAdvance.phase
      wrap := s.wraps
      f := if s.wraps
        then F32.add (s.nan 4) s.cfg.centreFrequency (F32.mul (s.nan 3) (s.memRead s.tableIndex) s.effectDepth)
        else s.f
      tableIndex := if s.wraps then (s.tableIndex + 1) &&& s.cfg.tableMask else s.tableIndex
      nanDraws := s.nanDraws + if s.wraps then 5 else 3 } := by
  cases hw : s.wraps with
  | true => simp only [oscillate_of_wraps hw, if_true]
  | false => simp only [oscillate_of_not_wraps hw, Bool.false_eq_true, if_false]

/-- The filter's part of a frame, given what F1 and the taps come to, where the oscillator has had `k` draws of the
frame (41_filter R90, R91). -/
theorem State.filter_eq {s : State} {draws k : Nat} (hdraws : s.nanDraws = draws + k) {x f1 l h b n : Word}
    (hf1 : f1 = F32.div (Config.nanResult (draws + (k + 1)))
      (F32.mul (Config.nanResult (draws + k)) F32.twoPi s.f) s.cfg.sampleRate)
    (hl : l = F32.add (Config.nanResult (draws + (k + 3))) s.d2
      (F32.mul (Config.nanResult (draws + (k + 2))) f1 s.d1))
    (hh : h = F32.sub (Config.nanResult (draws + (k + 6))) (F32.sub (Config.nanResult (draws + (k + 4))) x l)
      (F32.mul (Config.nanResult (draws + (k + 5))) s.q s.d1))
    (hb : b = F32.add (Config.nanResult (draws + (k + 8))) (F32.mul (Config.nanResult (draws + (k + 7))) f1 h) s.d1)
    (hn : n = F32.add (Config.nanResult (draws + (k + 9))) h l) :
    s.coefDerive.svfStep x =
      { s with f1 := f1, l := l, h := h, b := b, n := n, d1 := b, d2 := l, nanDraws := draws + k + 10 } := by
  have hc : s.coefDerive = { s with f1 := f1, nanDraws := draws + k + 2 } := by
    rw [coefDerive_writes, coefDerive_f1, hf1, nan, nan, hdraws]
    rfl
  rw [hc]
  exact svfStep_eq hl.symm hh.symm hb.symm hn.symm

/-- PROCESS of one frame whose words are there is the body of R100's loop. -/
theorem exec_process_one {s : State} (hm : s.mode = .ready) {mL mR sL sR : Word} {rest : List Word}
    (e : s.sampleIn = mL :: mR :: sL :: sR :: rest) : exec (.process 1) s =
      .next { (s.frameRegisters mL).streamOut [(s.frameRegisters mL).l, (s.frameRegisters mL).l, sL, sR] with
        sampleIn := rest, framesLeft := 0 } := by
  rw [exec_process_of_ready hm]
  refine congrArg _ ((runFrames_cons (s := { s with framesLeft := 1 }) e 0).trans ?_)
  rw [runFrames, State.runFrame_withFramesLeft]
  simp only [State.runFrame, State.frameStep, State.frameRegisters_withSampleIn]
  rfl

/-! ## The main-right words (R103) -/

/-- Two input streams of one length that differ in main-right words alone. -/
def SameButMainRight (xs ys : List Word) : Prop := xs.length = ys.length ∧ ∀ k, k % 4 ≠ 1 → xs[k]? = ys[k]?

/-- Their first frames share the words at the other three places, and the streams behind these frames are such streams. -/
theorem SameButMainRight.of_cons {mL mR sL sR : Word} {xs ys : List Word}
    (h : SameButMainRight (mL :: mR :: sL :: sR :: xs) ys) :
    ∃ mR' ys', ys = mL :: mR' :: sL :: sR :: ys' ∧ SameButMainRight xs ys' := by
  obtain ⟨hlen, hwords⟩ := h
  obtain ⟨mL', mR', sL', sR', ys, rfl⟩ := (frame_or_starved ys).resolve_right (by simp [← hlen])
  have hmL : mL = mL' := Option.some.inj (hwords 0 (by decide))
  have hsL : sL = sL' := Option.some.inj (hwords 2 (by decide))
  have hsR : sR = sR' := Option.some.inj (hwords 3 (by decide))
  subst hmL hsL hsR
  exact ⟨mR', ys, rfl, by simpa using hlen, fun k hk => hwords (k + 4) (by omega)⟩

/-- A frame does not read its main-right word, nor the stream behind its own words. -/
theorem State.runFrame_withMainRight (s : State) (mL mR mR' sL sR : Word) (xs ys : List Word) :
    s.runFrame mL mR' sL sR ys = { s.runFrame mL mR sL sR xs with sampleIn := ys } := by
  simp only [runFrame, frameStep, streamOut, frameRegisters_withSampleIn]

/-- The loop on such streams ends in states that differ in the unread stream alone. -/
theorem runFrames_sameButMainRight : ∀ (k : Nat) (s : State) (ys : List Word), SameButMainRight s.sampleIn ys →
    ∃ unread, runFrames k { s with sampleIn := ys } = { runFrames k s with sampleIn := unread }
  | 0, _, ys, _ => ⟨ys, rfl⟩
  | k + 1, s, ys, h => by
    rcases frame_or_starved s.sampleIn with ⟨mL, mR, sL, sR, rest, e⟩ | hstarved
    · rw [e] at h
      obtain ⟨mR', ys', rfl, hrest⟩ := h.of_cons
      rw [runFrames_cons e, runFrames_cons rfl]
      have hframe := State.runFrame_withMainRight s mL mR mR' sL sR rest ys'
      obtain ⟨unread, hk⟩ := runFrames_sameButMainRight k (s.runFrame mL mR sL sR rest) ys' (by simpa using hrest)
      exact ⟨unread, (congrArg (runFrames k) hframe).trans hk⟩
    · have hstarved' : ys.length < 4 := h.1 ▸ hstarved
      exact ⟨ys, by rw [runFrames_starved hstarved, runFrames_starved (s := { s with sampleIn := ys }) hstarved']⟩

end Sys2Proof.Machine
end

section
/-! PROOFS. PROCESS and its frame step (42_process): one frame, no frame, a block cut in two, and the input it discards. -/

namespace Sys2Proof.Machine

/-- Settles O46: the loop of the whole block is the first block's, with the second block's frames still to count, and then
the second block's. -/
theorem splittingABlockChangesNothing : Obligations.SplittingABlockChangesNothing := by
  intro m n s t hm hsum hwords ht
  have hfirst : ({ s with framesLeft := m } : State).continueProcess = t := by
    rw [exec_process_of_ready hm] at ht
    injection ht
  have hready : t.mode = .ready := by simpa [← hfirst] using hm
  have hended : t.framesLeft = 0 := hfirst ▸ (continueProcess_ran hwords).framesLeft_zero
  have hcount : (m + n).toNat = m.toNat + n.toNat := BitVec.toNat_add_of_lt hsum
  have hpart := runFrames_addFramesLeft n m.toNat { s with framesLeft := m }
  rw [show runFrames m.toNat { s with framesLeft := m } = t from hfirst, hended, zero_add] at hpart
  rw [exec_process_of_ready hm, exec_process_of_ready hready, State.continueProcess, frameCount, hcount, runFrames_add,
    hpart]
  rfl

/-- Settles O48: the loop on the two streams, frame by frame. -/
theorem mainRightInputIsDiscarded : Obligations.MainRightInputIsDiscarded := by
  intro frames xs ys s t u hm hlen hwords ht hu
  rw [exec_process_of_ready (s := { s with sampleIn := xs }) hm] at ht
  rw [exec_process_of_ready (s := { s with sampleIn := ys }) hm] at hu
  cases ht
  cases hu
  obtain ⟨unread, h⟩ := runFrames_sameButMainRight frames.toNat { s with sampleIn := xs, framesLeft := frames } ys
    ⟨hlen, hwords⟩
  simp only [State.continueProcess, frameCount, h]

/-- Settles O43: the oscillator's part of the frame, then the filter's, then the words it puts. -/
theorem oneFrameBlockComputesTheFrameStep : Obligations.OneFrameBlockComputesTheFrameStep := by
  intro s mL mR sL sR rest hm e
  refine ⟨_, _, _, _, _, _, _, _, _, rfl, rfl, rfl, rfl, rfl, rfl, rfl, rfl, rfl, ?_⟩
  rw [exec_process_one hm e, State.frameRegisters, State.oscillate_eq, State.filter_eq rfl rfl rfl rfl rfl rfl]
  rfl

/-- Settles O45: with no frames left the loop ends at once. -/
theorem emptyBlockChangesNothing : Obligations.EmptyBlockChangesNothing := by
  intro s hm hf
  rw [exec_process_of_ready hm, State.continueProcess_of_framesLeft_zero rfl, ← hf]

end Sys2Proof.Machine
end

section
/-! SUPPORT. Exact binary32 results: rounding at a greater scale, products that are representable, and products with
1.0. -/

namespace Sys2Proof.F32

/-! ## Rounding at a greater scale -/

/-- A common factor of both sides changes no rounded quotient. -/
theorem divNearestEven_mul_mul {d c : Nat} (hd : 0 < d) (hc : 0 < c) (n : Nat) :
    divNearestEven (n * c) (d * c) = divNearestEven n d := by
  have e : n * c * d = n * (d * c) := by ring
  exact Nat.le_antisymm (divNearestEven_mono (Nat.mul_pos hd hc) hd e.le)
    (divNearestEven_mono hd (Nat.mul_pos hd hc) e.ge)

theorem log2_mul_two_pow {n : Nat} (h : n ≠ 0) (k : Nat) : Nat.log2 (n * 2 ^ k) = Nat.log2 n + k := by
  rw [Nat.log2_eq_iff (Nat.mul_ne_zero h (Nat.two_pow_pos k).ne'), Nat.pow_add, Nat.add_right_comm, Nat.pow_add]
  exact ⟨Nat.mul_le_mul_right _ (Nat.log2_self_le h), Nat.mul_lt_mul_of_pos_right Nat.lt_log2_self (Nat.two_pow_pos k)⟩

/-! ## Products -/

/-- A representable product is exact. -/
theorem mag_mul_of_representable {a b : Word} (ha : isFinite a = true) (hb : isFinite b = true) {n : Nat}
    (hn : Representable n) (h : mag a * mag b = n * unit) (nan : Word) : mag (mul nan a b) = n := by
  obtain ⟨m, hm, rfl⟩ := hn
  rw [mul_of_isFinite ha hb, mag_round, h, roundMag_exact (Nat.two_pow_pos _) hm]

/-- 1.0 times a number is that number, an infinity or a zero of either sign too. -/
theorem mul_one_of_not_nan {a : Word} (h : isNaN a = false) (nan : Word) : mul nan a one = a := by
  cases hi : isInf a with
  | true =>
    rw [eq_infOf_of_isInf hi]
    cases sign a with
    | false => exact eq_of_quiet (mul_nan_or _ _) (by decide) (by decide) nan
    | true => exact eq_of_quiet (mul_nan_or _ _) (by decide) (by decide) nan
  | false =>
    have ha := isFinite_of_not h hi
    refine eq_of_sign_of_mag ha ?_ (mag_mul_of_representable ha (by decide) (representable_mag ha) ?_ nan)
    · rw [mul_of_isFinite ha (by decide), sign_round, show sign one = false by decide, Bool.bne_false]
    · rw [show mag one = unit by decide]

end Sys2Proof.F32
end

section
/-! SUPPORT. The raw value conversion of 43_parameters R108: what `round24` answers, and that neither of the conversion's
two operations rounds a second time. -/

namespace Sys2Proof.Machine

/-! ## round24 -/

/-- Below 2^24 there is nothing to round. -/
theorem round24_of_lt {n : Nat} (h : n < 2 ^ 24) : round24 n = n := by
  have hk : Nat.log2 n - 23 = 0 := F32.scale_eq_zero (d := 1) (by rwa [Nat.div_one]) ▸ by rw [F32.scale, Nat.div_one]
  rw [round24, hk, Nat.pow_zero, F32.divNearestEven_one, Nat.mul_one]

/-- A rounded value is a significand of at most 24 bits, or 2^24, scaled. -/
theorem round24_eq_mul_two_pow {n : Nat} (h : n < 2 ^ 32) : ∃ x k, x ≤ 2 ^ 24 ∧ k ≤ 8 ∧ round24 n = x * 2 ^ k := by
  refine ⟨_, _, ?_, ?_, rfl⟩
  · have hq : n / 2 ^ (Nat.log2 n - 23) < 2 ^ 24 := by
      rw [Nat.div_lt_iff_lt_mul (Nat.two_pow_pos _), ← Nat.pow_add]
      exact Nat.lt_log2_self.trans_le (Nat.pow_le_pow_right (by decide) (by omega))
    exact (F32.divNearestEven_le_succ _ _).trans hq
  · rcases Nat.eq_zero_or_pos n with rfl | hpos
    · decide
    · have := (Nat.log2_lt hpos.ne').2 h
      omega

/-- A rounded value is representable at any exponent of at most 245. -/
theorem representable_round24 {n j : Nat} (h : n < 2 ^ 32) (hj : j ≤ 245) : F32.Representable (round24 n * 2 ^ j) := by
  obtain ⟨x, k, hx, hk, e⟩ := round24_eq_mul_two_pow h
  rw [e, Nat.mul_assoc, ← Nat.pow_add]
  exact F32.representable_mul_two_pow hx (by omega)

/-- Within half a unit in the last place of 2^31 the rounded value is 2^31. -/
theorem round24_top {n : Nat} (h1 : 0x7FFFFFC0 ≤ n) (h2 : n < 2 ^ 31) : round24 n = 2 ^ 31 := by
  have hlog : Nat.log2 n = 30 := (Nat.log2_eq_iff (by omega)).2 (by omega)
  have hq : F32.divNearestEven n (2 ^ 7) = 2 ^ 24 := by
    simp only [F32.divNearestEven]
    split
    · omega
    · split <;> omega
  rw [round24, hlog, hq, ← Nat.pow_add]

/-! ## The converted integer -/

/-- An integer rounded as a binary32 value is the integer rounded to 24 significant bits. -/
theorem magOfBits_roundMag_unit {n : Nat} (h : n < 2 ^ 32) :
    F32.magOfBits (F32.roundMag (n * F32.unit) 1) = round24 n * F32.unit := by
  rcases Nat.lt_or_ge n (2 ^ 24) with hlt | hge
  · obtain ⟨m, hm, e⟩ := F32.representable_mul_two_pow (x := n) (k := 149) hlt.le (by decide)
    rw [round24_of_lt hlt, ← e, F32.roundMag_magOfBits hm]
  · have h0 : n ≠ 0 := by omega
    have hlog : 24 ≤ Nat.log2 n := (Nat.le_log2 h0).2 hge
    have hlog' : Nat.log2 n < 32 := (Nat.log2_lt h0).2 h
    have hscale : F32.scale (n * F32.unit) 1 = Nat.log2 n - 23 + 149 := by
      rw [F32.scale, Nat.div_one, F32.log2_mul_two_pow h0]
      omega
    have hbits : F32.floorBits (n * F32.unit) 1 < 0x7F800000 := by
      have hq := F32.quotient_lt (n := n * F32.unit) (d := 1)
      rw [F32.floorBits]
      omega
    rw [(F32.roundMag_of_floorBits_lt hbits).2, hscale, Nat.one_mul, Nat.pow_add,
      F32.divNearestEven_mul_mul (Nat.two_pow_pos _) (Nat.two_pow_pos _), round24, Nat.mul_assoc]

theorem natAbs_toInt_lt (w : Word) : w.toInt.natAbs < 2 ^ 32 := by
  have hlo := BitVec.le_toInt w
  have hhi := BitVec.toInt_lt (x := w)
  omega

theorem mag_ofI32 (w : Word) : F32.mag (F32.ofI32 w) = round24 w.toInt.natAbs * F32.unit := by
  rw [F32.ofI32, F32.mag_round, magOfBits_roundMag_unit (natAbs_toInt_lt w)]

theorem isFinite_ofI32 (w : Word) : F32.isFinite (F32.ofI32 w) = true := by
  have hlo := BitVec.le_toInt w
  have hhi := BitVec.toInt_lt (x := w)
  have hbot : F32.val 0xCF000000 = -(2 ^ 31) * (F32.unit : Int) := by decide
  have htop : F32.val 0x4F000000 = 2 ^ 31 * (F32.unit : Int) := by decide
  refine ((F32.ofI32_isNearestEven w).between (lo := 0xCF000000) (hi := 0x4F000000) (by decide) (by decide) (by decide)
    ?_ ?_).1
  · rw [hbot, Int.mul_one]
    exact mul_le_mul_of_nonneg_right (by omega) (by decide)
  · rw [htop, Int.mul_one]
    exact mul_le_mul_of_nonneg_right (by omega) (by decide)

/-! ## The unit value -/

/-- The product with 2^-31 is a number, with the sign of RAW. -/
theorem rawToUnit_sign (nan raw : Word) : F32.isNaN (rawToUnit nan raw) = false ∧
    F32.sign (rawToUnit nan raw) = decide (raw.toInt < 0) := by
  rw [rawToUnit, F32.mul_of_isFinite (isFinite_ofI32 raw) (by decide)]
  refine ⟨F32.isNaN_round _ _ _, ?_⟩
  rw [F32.sign_round, show F32.sign F32.twoPowNeg31 = false by decide, Bool.bne_false, F32.ofI32, F32.sign_round]

/-- The product with 2^-31 is exact: all rounding is the integer's. -/
theorem rawToUnit_mag (nan raw : Word) : F32.mag (rawToUnit nan raw) = round24 raw.toInt.natAbs * 2 ^ 118 := by
  refine F32.mag_mul_of_representable (isFinite_ofI32 raw) (by decide)
    (representable_round24 (natAbs_toInt_lt raw) (by decide)) ?_ nan
  rw [mag_ofI32, show F32.mag F32.twoPowNeg31 = 2 ^ 118 by decide, Nat.mul_right_comm]

theorem rawToUnit_mag_mul (nan raw : Word) :
    F32.mag (rawToUnit nan raw) * 2 ^ 31 = round24 raw.toInt.natAbs * 2 ^ 149 := by
  rw [rawToUnit_mag, Nat.mul_assoc, ← Nat.pow_add]

theorem rawNegative_eq_false {raw : Word} (h : raw.toNat < 2 ^ 31) : rawNegative raw = false :=
  decide_eq_false (Nat.not_le.2 h)

/-- The integer a raw value with bit 31 clear stands for. -/
theorem toInt_of_lt {raw : Word} (h : raw.toNat < 2 ^ 31) : raw.toInt = raw.toNat :=
  BitVec.toInt_eq_toNat_of_lt (by omega)

/-- The integer a raw value with bit 31 set stands for. -/
theorem toInt_of_ge {raw : Word} (h : 2 ^ 31 ≤ raw.toNat) : raw.toInt = -((2 ^ 32 - raw.toNat : Nat) : Int) := by
  have hlt := raw.isLt
  rw [BitVec.toInt_eq_toNat_cond]
  split
  · omega
  · omega

theorem rawToUnit_toNat_le {raw : Word} (h : raw.toNat < 2 ^ 31) (nan : Word) :
    (rawToUnit nan raw).toNat ≤ 0x3F800000 := by
  have hs : F32.sign (rawToUnit nan raw) = false := by
    rw [(rawToUnit_sign nan raw).2, toInt_of_lt h]
    exact decide_eq_false (by omega)
  exact F32.toNat_le_of_val_le (q := F32.one) hs (by decide) (rawToUnit_between (rawNegative_eq_false h) nan).2.2

/-- The greatest raw values convert to 1.0. -/
theorem rawToUnit_top {raw : Word} (h1 : 0x7FFFFFC0 ≤ raw.toNat) (h2 : raw.toNat < 2 ^ 31) (nan : Word) :
    rawToUnit nan raw = F32.one := by
  refine F32.eq_of_sign_of_mag (by decide) ?_ ?_
  · rw [(rawToUnit_sign nan raw).2, toInt_of_lt h2]
    exact decide_eq_false (by omega)
  · rw [rawToUnit_mag, toInt_of_lt h2, Int.natAbs_natCast, round24_top h1 h2]
    decide

/-- An evaluated conversion, whatever a NaN would be. -/
theorem rawToUnit_eq {raw w : Word} (h : rawToUnit 0x7FC00000 raw = w) (hw : F32.isNaN w = false) (nan : Word) :
    rawToUnit nan raw = w :=
  F32.eq_of_quiet (op := fun n => rawToUnit n raw) (F32.mul_nan_or _ _) h hw nan

theorem rawToUnit_zero (nan : Word) : rawToUnit nan 0 = F32.zero := rawToUnit_eq (by decide) (by decide) nan

end Sys2Proof.Machine
end

section
/-! SUPPORT. The three forms of SET_PARAM (43_parameters R109 to R112): what each does in each mode, and the scalar that
TIME and DEPTH write. -/

namespace Sys2Proof.Machine

/-! ## The forms, by mode and by raw value -/

section
variable {raw : Word} {s run t : State} (hm : s.mode = .ready)
include hm

/-- In READY a raw value with bit 31 clear is in range, and the writes of the parameter follow. -/
theorem setParam_of_lt (h : raw.toNat < 2 ^ 31) :
    s.whenReady (if rawNegative raw then s.raiseFault .rawOutOfRange else run) = .next run := by
  rw [State.whenReady_ready hm, rawNegative_eq_false h, if_neg Bool.false_ne_true]

/-- In READY a raw value with bit 31 set raises RAW_OUT_OF_RANGE instead. -/
theorem setParam_of_ge (h : 2 ^ 31 ≤ raw.toNat) :
    s.whenReady (if rawNegative raw then s.raiseFault .rawOutOfRange else run) =
      .next (s.raiseFault .rawOutOfRange) := by
  rw [State.whenReady_ready hm, rawNegative, if_pos (decide_eq_true h)]

theorem eq_setTime_of_exec (h : raw.toNat < 2 ^ 31) (ht : exec (.setParamTime raw) s = .next t) : t = s.setTime raw :=
  Host.Outcome.next.inj (ht.symm.trans (setParam_of_lt hm h))

theorem eq_setDepth_of_exec (h : raw.toNat < 2 ^ 31) (ht : exec (.setParamDepth raw) s = .next t) :
    t = s.setDepth raw :=
  Host.Outcome.next.inj (ht.symm.trans (setParam_of_lt hm h))

end

/-- SET_PARAM with no parameter keeps the state or raises NOT_INITIALIZED. -/
theorem exec_setParamNone_cases {pidx : BitVec 8} {raw : Word} {s t : State}
    (h : exec (.setParamNone pidx raw) s = .next t) : t = s ∨ t = s.raiseFault .notInitialized := by
  rcases State.whenReady_cases h with ⟨-, rfl⟩ | ⟨-, rfl⟩ | ⟨-, rfl⟩
  · exact .inl rfl
  · exact .inr rfl
  · exact .inl rfl

/-! ## The frame -/

/-- The lifecycle and parameter registers of `u`, with all the rest of `s`. -/
def State.withParams (s u : State) : State :=
  { s with
    mode := u.mode, faultCause := u.faultCause, rate := u.rate, timeKnob := u.timeKnob, tkw := u.tkw,
    effectDepth := u.effectDepth, depthKnob := u.depthKnob, dkw := u.dkw, nanDraws := u.nanDraws }

/-- What SET_PARAM TIME and DEPTH can do: nothing, raise a fault, or make the writes of the parameter. -/
theorem setParam_cases {raw : Word} {s run t : State}
    (h : s.whenReady (if rawNegative raw then s.raiseFault .rawOutOfRange else run) = .next t) :
    t = s ∨ (∃ c, t = s.raiseFault c) ∨ t = run := by
  rcases State.whenReady_cases h with ⟨-, rfl⟩ | ⟨-, rfl⟩ | ⟨-, rfl⟩
  · exact .inl rfl
  · exact .inr (.inl ⟨_, rfl⟩)
  · split
    · exact .inr (.inl ⟨_, rfl⟩)
    · exact .inr (.inr rfl)

/-- SET_PARAM writes lifecycle and parameter registers only, and of the latter those of its own parameter only. -/
theorem exec_setParam_writes {i : Instr} {s t : State}
    (hi : (∃ raw, i = .setParamTime raw) ∨ (∃ raw, i = .setParamDepth raw) ∨ (∃ pidx raw, i = .setParamNone pidx raw))
    (h : exec i s = .next t) : t = s.withParams t ∧
    ((¬∃ raw, i = .setParamTime raw) → t.rate = s.rate ∧ t.timeKnob = s.timeKnob ∧ t.tkw = s.tkw) ∧
    ((¬∃ raw, i = .setParamDepth raw) → t.effectDepth = s.effectDepth ∧ t.depthKnob = s.depthKnob ∧ t.dkw = s.dkw) := by
  rcases hi with ⟨raw, rfl⟩ | ⟨raw, rfl⟩ | ⟨pidx, raw, rfl⟩
  · rcases setParam_cases h with rfl | ⟨c, rfl⟩ | rfl
    · exact ⟨rfl, fun _ => ⟨rfl, rfl, rfl⟩, fun _ => ⟨rfl, rfl, rfl⟩⟩
    · exact ⟨rfl, fun _ => ⟨rfl, rfl, rfl⟩, fun _ => ⟨rfl, rfl, rfl⟩⟩
    · exact ⟨rfl, fun hn => absurd ⟨raw, rfl⟩ hn, fun _ => ⟨rfl, rfl, rfl⟩⟩
  · rcases setParam_cases h with rfl | ⟨c, rfl⟩ | rfl
    · exact ⟨rfl, fun _ => ⟨rfl, rfl, rfl⟩, fun _ => ⟨rfl, rfl, rfl⟩⟩
    · exact ⟨rfl, fun _ => ⟨rfl, rfl, rfl⟩, fun _ => ⟨rfl, rfl, rfl⟩⟩
    · exact ⟨rfl, fun _ => ⟨rfl, rfl, rfl⟩, fun hn => absurd ⟨raw, rfl⟩ hn⟩
  · rcases exec_setParamNone_cases h with rfl | rfl
    · exact ⟨rfl, fun _ => ⟨rfl, rfl, rfl⟩, fun _ => ⟨rfl, rfl, rfl⟩⟩
    · exact ⟨rfl, fun _ => ⟨rfl, rfl, rfl⟩, fun _ => ⟨rfl, rfl, rfl⟩⟩

/-! ## The scalars -/

theorem State.setTime_rate (s : State) (raw : Word) :
    (s.setTime raw).rate = F32.mul (s.nan 1) s.cfg.maxLfoRate (rawToUnit (s.nan 0) raw) := rfl

theorem State.setDepth_effectDepth (s : State) (raw : Word) : (s.setDepth raw).effectDepth =
    F32.mul (s.nan 1) (rawToUnit (s.nan 0) raw) s.cfg.maxFrequencyDeviation := rfl

/-- RATE where the knob and the product are known numbers. -/
theorem State.setTime_rate_eq {s : State} {raw v max w : Word} (hmax : s.cfg.maxLfoRate = max)
    (hv : rawToUnit 0x7FC00000 raw = v) (hvn : F32.isNaN v = false) (hw : F32.mul 0x7FC00000 max v = w)
    (hwn : F32.isNaN w = false) : (s.setTime raw).rate = w := by
  rw [setTime_rate, hmax, rawToUnit_eq hv hvn]
  exact F32.eq_of_quiet (F32.mul_nan_or _ _) hw hwn _

/-- EFFECT_DEPTH where the knob and the product are known numbers. -/
theorem State.setDepth_effectDepth_eq {s : State} {raw v max w : Word} (hmax : s.cfg.maxFrequencyDeviation = max)
    (hv : rawToUnit 0x7FC00000 raw = v) (hvn : F32.isNaN v = false) (hw : F32.mul 0x7FC00000 v max = w)
    (hwn : F32.isNaN w = false) : (s.setDepth raw).effectDepth = w := by
  rw [setDepth_effectDepth, hmax, rawToUnit_eq hv hvn]
  exact F32.eq_of_quiet (F32.mul_nan_or _ _) hw hwn _

/-- With the knob at 1.0 RATE is MAX_LFO_RATE. -/
theorem State.setTime_rate_top {s : State} {raw : Word} (h1 : 0x7FFFFFC0 ≤ raw.toNat) (h2 : raw.toNat < 2 ^ 31)
    (hn : F32.isNaN s.cfg.maxLfoRate = false) : (s.setTime raw).rate = s.cfg.maxLfoRate := by
  rw [setTime_rate, rawToUnit_top h1 h2, F32.mul_one_of_not_nan hn]

/-- With the knob at 1.0 EFFECT_DEPTH is MAX_FREQUENCY_DEVIATION. -/
theorem State.setDepth_effectDepth_top {s : State} {raw : Word} (h1 : 0x7FFFFFC0 ≤ raw.toNat) (h2 : raw.toNat < 2 ^ 31)
    (hf : F32.isFinite s.cfg.maxFrequencyDeviation = true) :
    (s.setDepth raw).effectDepth = s.cfg.maxFrequencyDeviation := by
  rw [setDepth_effectDepth, rawToUnit_top h1 h2, F32.mul_comm_of_isFinite (by decide) hf,
    F32.mul_one_of_not_nan (F32.isNaN_of_isFinite hf)]

/-- With the knob at +0.0 RATE is +0.0. -/
theorem State.setTime_rate_zero {s : State} (hf : F32.isFinite s.cfg.maxLfoRate = true)
    (hs : F32.sign s.cfg.maxLfoRate = false) : (s.setTime 0).rate = F32.zero := by
  rw [setTime_rate, rawToUnit_zero, F32.mul_zero_of_isFinite hf, hs]
  rfl

/-- With the knob at +0.0 EFFECT_DEPTH is +0.0. -/
theorem State.setDepth_effectDepth_zero {s : State} (hf : F32.isFinite s.cfg.maxFrequencyDeviation = true)
    (hs : F32.sign s.cfg.maxFrequencyDeviation = false) : (s.setDepth 0).effectDepth = F32.zero := by
  rw [setDepth_effectDepth, rawToUnit_zero, F32.mul_comm_of_isFinite (by decide) hf, F32.mul_zero_of_isFinite hf, hs]
  rfl

end Sys2Proof.Machine
end

section
/-! PROOFS. SET_PARAM (43_parameters): the raw value conversion, the two parameters with their faults and their ranges,
and what the command leaves as it is. -/

namespace Sys2Proof.Machine

/-- Settles O21: the integer is rounded once and the product with 2^-31 is exact; the examples evaluated. -/
theorem rawConversionIsExact : Obligations.RawConversionIsExact := by
  refine ⟨fun raw nan => rfl, fun raw nan h => ?_, fun raw nan h => ?_, fun nan => ⟨?_, ?_, ?_, ?_, ?_, ?_⟩⟩
  · obtain ⟨hnan, hsign⟩ := rawToUnit_sign nan raw
    have hlt := raw.isLt
    have hneg : raw.toInt < 0 := by rw [toInt_of_ge h]; omega
    have hmag := rawToUnit_mag_mul nan raw
    rw [toInt_of_ge h, Int.natAbs_neg, Int.natAbs_natCast] at hmag
    refine ⟨hnan, ?_⟩
    rw [F32.val, hsign, decide_eq_true hneg, if_pos rfl, ← hmag, Int.neg_mul]
    rfl
  · have hmag := rawToUnit_mag_mul nan raw
    rw [toInt_of_lt h, Int.natAbs_natCast] at hmag
    exact ⟨(rawToUnit_sign nan raw).1, rawToUnit_toNat_le h nan, hmag, fun htop => rawToUnit_top htop h nan⟩
  · exact rawToUnit_eq (by decide) (by decide) nan
  · exact rawToUnit_eq (by decide) (by decide) nan
  · exact rawToUnit_zero nan
  · exact rawToUnit_eq (by decide) (by decide) nan
  · exact rawToUnit_eq (by decide) (by decide) nan
  · exact rawToUnit_eq (by decide) (by decide) nan

/-- Settles O17: each case of the command; a zero product and a product with 1.0; the examples evaluated. -/
theorem setTimeWritesTheRate : Obligations.SetTimeWritesTheRate := by
  refine ⟨fun raw s hm h => setParam_of_lt hm h, fun raw s hm => State.whenReady_uninit hm _,
    fun raw s hm h => setParam_of_ge hm h, fun s t hm => ⟨fun hf hs ht => ?_, fun hn ht => ?_⟩,
    fun s t hm hmax => ⟨fun ht => ?_, fun ht => ?_, fun ht => ?_⟩⟩
  · rw [eq_setTime_of_exec hm (by decide) ht]
    exact State.setTime_rate_zero hf hs
  · rw [eq_setTime_of_exec hm (by decide) ht]
    exact State.setTime_rate_top (by decide) (by decide) hn
  · rw [eq_setTime_of_exec hm (by decide) ht]
    exact State.setTime_rate_eq (v := 0x3F000000) hmax (by decide) (by decide) (by decide) (by decide)
  · rw [eq_setTime_of_exec hm (by decide) ht]
    exact State.setTime_rate_eq (v := 0x3E99999A) hmax (by decide) (by decide) (by decide) (by decide)
  · rw [eq_setTime_of_exec hm (by decide) ht]
    exact State.setTime_rate_eq (v := 0x3DCCCCCD) hmax (by decide) (by decide) (by decide) (by decide)

/-- Settles O18: each case of the command; a zero product, with which a later draw adds a zero; the examples evaluated. -/
theorem setDepthWritesTheEffectDepth : Obligations.SetDepthWritesTheEffectDepth := by
  refine ⟨fun raw s hm h => setParam_of_lt hm h, fun raw s hm => State.whenReady_uninit hm _,
    fun raw s hm h => setParam_of_ge hm h, fun s t hm hf hs ht => ?_,
    fun s t hm hmax => ⟨fun ht => ?_, fun ht => ?_, fun ht => ?_, fun ht => ?_, fun ht => ?_⟩⟩
  · have hzero : t.effectDepth = F32.zero := by
      rw [eq_setDepth_of_exec hm (by decide) ht]
      exact State.setDepth_effectDepth_zero hf hs
    exact ⟨hzero, fun u _ hu hw hc => (State.wrapDraw_f_of_effectDepth_zero hw (hu.trans hzero) hc).1⟩
  · rw [eq_setDepth_of_exec hm (by decide) ht]
    exact State.setDepth_effectDepth_eq (v := 0x3F000000) hmax (by decide) (by decide) (by decide) (by decide)
  · rw [eq_setDepth_of_exec hm (by decide) ht]
    exact State.setDepth_effectDepth_eq (v := 0x3F800000) hmax (by decide) (by decide) (by decide) (by decide)
  · rw [eq_setDepth_of_exec hm (by decide) ht]
    exact State.setDepth_effectDepth_eq (v := 0x3E99999A) hmax (by decide) (by decide) (by decide) (by decide)
  · rw [eq_setDepth_of_exec hm (by decide) ht]
    exact State.setDepth_effectDepth_eq (v := 0x3DCCCCCD) hmax (by decide) (by decide) (by decide) (by decide)
  · rw [eq_setDepth_of_exec hm (by decide) ht]
    exact State.setDepth_effectDepth_eq (v := 0x3F7FFFFF) hmax (by decide) (by decide) (by decide) (by decide)

/-- Settles O22: a knob of [0, 1] scales the maximum down, and a knob of 1.0 keeps it. -/
theorem parametersStayInRange : Obligations.ParametersStayInRange := by
  intro raw s t hord hm h
  have hc := Config.bounds_of_ordinary hord
  have hz : F32.isNaN F32.zero = false := by decide
  have hr := rawNegative_eq_false h
  refine ⟨fun ht => ?_, fun ht => ?_⟩
  · obtain rfl := eq_setTime_of_exec hm h ht
    have hn := F32.isNaN_of_isFinite hc.maxRate
    exact ⟨(F32.between_iff hz hn).2 (State.setTime_rate_between hc hr),
      fun htop => congrArg F32.val (State.setTime_rate_top htop h hn)⟩
  · obtain rfl := eq_setDepth_of_exec hm h ht
    exact ⟨(F32.between_iff hz (F32.isNaN_of_isFinite hc.deviation)).2 (State.setDepth_effectDepth_between hc hr),
      fun htop => congrArg F32.val (State.setDepth_effectDepth_top htop h hc.deviation)⟩

/-- Settles O19: behind the lifecycle guard the command does nothing. -/
theorem setNoneHasNoEffect : Obligations.SetNoneHasNoEffect :=
  ⟨fun _ _ _ hm => State.whenReady_ready hm _, fun _ _ _ hm => State.whenReady_uninit hm _⟩

/-- Settles O20: the range check behind the lifecycle guard; the form with no parameter raises another fault or none. -/
theorem negativeRawHalts : Obligations.NegativeRawHalts := by
  refine ⟨fun raw s hm h => ⟨setParam_of_ge hm h, setParam_of_ge hm h⟩,
    fun pidx raw s t h hc => ?_⟩
  rcases exec_setParamNone_cases h with rfl | rfl
  · exact hc
  · cases hc

/-- Settles O23: what a form writes lies among the lifecycle and parameter registers, and is its own parameter's. -/
theorem setParamLeavesTheRest : Obligations.SetParamLeavesTheRest := by
  intro i s t hi h
  obtain ⟨hframe, htime, hdepth⟩ := exec_setParam_writes hi h
  obtain ⟨u, rfl⟩ : ∃ u, t = s.withParams u := ⟨t, hframe⟩
  exact ⟨rfl, rfl, rfl, rfl, rfl, rfl, rfl, rfl, rfl, rfl, rfl, rfl, rfl, rfl, rfl, rfl, rfl, rfl, fun _ => rfl, htime,
    hdepth⟩

end Sys2Proof.Machine
end

section
/-! SUPPORT. INIT and READ_REG by mode (44_system R115 to R118): the state each answers, what HALTED discards, and what the
registers after INIT depend on. -/

namespace Sys2Proof.Machine

/-! ## INIT -/

theorem exec_init_of_ne_halted {s : State} (hm : s.mode ≠ .halted) (p a : Word) :
    exec (.init p a) s = .next s.initialise := by
  change execInit p a s = _
  unfold execInit
  split
  · next hh => exact absurd hh hm
  · rfl
  · rfl

theorem eq_initialise_of_exec {s t : State} {p a : Word} (hm : s.mode ≠ .halted) (h : exec (.init p a) s = .next t) :
    t = s.initialise :=
  Host.Outcome.next.inj (h.symm.trans (exec_init_of_ne_halted hm p a))

/-- INIT reads nothing but the configuration, which it does not write (R119). -/
theorem State.initialise_initialise (s : State) : s.initialise.initialise = s.initialise := rfl

/-- STATUS reads MODE, FAULT_CAUSE and the knob flags only (R36). -/
theorem State.status_congr {s t : State} (hm : s.mode = t.mode) (hc : s.faultCause = t.faultCause)
    (ht : s.tkw = t.tkw) (hd : s.dkw = t.dkw) : s.status = t.status := by
  simp only [status, readyFlag, haltedFlag, hm, hc, ht, hd]

/-- The configuration and FAULT_CAUSE fix every readable register after INIT. -/
theorem State.initialise_readRegister_congr {s s' : State} (hcfg : s.cfg = s'.cfg)
    (hcause : s.faultCause = s'.faultCause) (r : Reg) :
    s.initialise.readRegister r = s'.initialise.readRegister r := by
  cases r with
  | status => exact congrArg some (State.status_congr rfl hcause rfl rfl)
  | rate => exact congrArg (fun c : Config => some c.initLfoRate) hcfg
  | q => exact congrArg (fun c : Config => some c.qConst) hcfg
  | f => exact congrArg (fun c : Config => some c.initFrequency) hcfg
  | effectDepth => exact congrArg (fun c : Config => some c.initDeviation) hcfg
  | _ => rfl

/-! ## READ_REG -/

theorem exec_readReg_status (s : State) : exec (.readReg .status) s = .next (s.respond s.status) := rfl

/-- Every register but STATUS is read behind the lifecycle guard. -/
theorem exec_readReg_of_ne_status {reg : Reg} (hr : reg ≠ .status) (s : State) :
    exec (.readReg reg) s = s.whenReady (s.readNamed reg) := if_neg hr

/-- The register is a knob whose flag is clear (R118). -/
def State.knobUnwritten (s : State) (reg : Reg) : Prop :=
  (reg = .depthKnob ∧ s.dkw = false) ∨ (reg = .timeKnob ∧ s.tkw = false)

theorem State.readNamed_of_unwritten {s : State} {reg : Reg} (h : s.knobUnwritten reg) :
    s.readNamed reg = s.raiseFault .unwrittenRead := by
  unfold readNamed
  rcases h with hd | ht
  · rw [if_pos hd]
  · rw [if_pos ht, ite_self]

theorem State.readNamed_of_written {s : State} {reg : Reg} {w : Word} (h : ¬s.knobUnwritten reg)
    (hw : s.readRegister reg = some w) : s.readNamed reg = s.respond w := by
  obtain ⟨hd, ht⟩ := not_or.1 h
  simp only [readNamed, if_neg hd, if_neg ht, hw]

theorem exec_readReg_of_written {s : State} {reg : Reg} {w : Word} (hm : s.mode = .ready) (h : ¬s.knobUnwritten reg)
    (hw : s.readRegister reg = some w) : exec (.readReg reg) s = .next (s.respond w) := by
  by_cases hr : reg = .status
  · subst hr
    cases hw
    exact exec_readReg_status s
  · rw [exec_readReg_of_ne_status hr, State.whenReady_ready hm, State.readNamed_of_written h hw]

theorem exec_readReg_of_unwritten {s : State} {reg : Reg} (hm : s.mode = .ready) (h : s.knobUnwritten reg) :
    exec (.readReg reg) s = .next (s.raiseFault .unwrittenRead) := by
  have hr : reg ≠ .status := by
    rcases h with ⟨rfl, -⟩ | ⟨rfl, -⟩
    · exact Reg.noConfusion
    · exact Reg.noConfusion
  rw [exec_readReg_of_ne_status hr, State.whenReady_ready hm, State.readNamed_of_unwritten h]

/-! ## HALTED -/

/-- In HALTED only READ_REG 0x00 has an effect (R117, 60_exceptions R128). -/
theorem exec_of_halted {i : Instr} {s : State} (hm : s.mode = .halted) (hi : i ≠ .readReg .status) :
    exec i s = .next s := by
  cases i with
  | init p a =>
    change execInit p a s = _
    simp only [execInit, hm]
  | setParamTime raw => exact State.whenReady_halted hm _
  | setParamDepth raw => exact State.whenReady_halted hm _
  | setParamNone pidx raw => exact State.whenReady_halted hm _
  | process frames => exact State.whenReady_halted hm _
  | readReg reg =>
    have hr : reg ≠ .status := fun h => hi (congrArg Instr.readReg h)
    exact (exec_readReg_of_ne_status hr s).trans (State.whenReady_halted hm _)

end Sys2Proof.Machine
end

section
/-! PROOFS. INIT and READ_REG (44_system): what INIT writes and that a second INIT changes nothing, and what each register
read answers in each mode. -/

namespace Sys2Proof.Machine

/-! ## INIT -/

/-- Settles O11: outside HALTED the state after INIT, and what HALTED discards. -/
theorem initWritesItsRegisters : Obligations.InitWritesItsRegisters :=
  fun p a _ => ⟨fun hm => exec_init_of_ne_halted hm p a, fun hm => exec_of_halted hm Instr.noConfusion⟩

/-- Settles O12: what INIT writes comes from the configuration, which it leaves as it is. -/
theorem initIsIdempotent : Obligations.InitIsIdempotent := by
  refine ⟨fun p a p' a' s t hm ht => ?_, fun p a p' a' s s' t t' hm hm' hcfg hcause ht ht' => ?_⟩
  · obtain rfl := eq_initialise_of_exec hm ht
    rw [exec_init_of_ne_halted Mode.noConfusion, State.initialise_initialise]
  · obtain rfl := eq_initialise_of_exec hm ht
    obtain rfl := eq_initialise_of_exec hm' ht'
    exact ⟨rfl, rfl, rfl, State.initialise_readRegister_congr hcfg hcause⟩

/-! ## READ_REG -/

/-- Settles O13: STATUS is read before the lifecycle guard, which discards the rest in HALTED; in UNINIT STATUS is 0. -/
theorem statusIsReadInEveryMode : Obligations.StatusIsReadInEveryMode := by
  refine ⟨exec_readReg_status, fun i s hm hi => exec_of_halted hm hi, fun s hm hinv => ?_⟩
  obtain ⟨-, -, huninit, -⟩ := statusFieldsReportTheLifecycle
  rw [exec_readReg_status, huninit s hm hinv]
  rfl

/-- Settles O15: each register by its flag and by the mode; the example is O17's, read back. -/
theorem readRegReturnsTheRegister : Obligations.ReadRegReturnsTheRegister := by
  refine ⟨exec_readReg_status, fun s hm => ?_, fun s v hm hd hv => ?_, fun s v hm ht hv => ?_, fun s hm hd => ?_,
    fun s hm ht => ?_, fun r s hm hr => ?_, fun s t u hm hmax ht hu => ?_⟩
  · rw [BitVec.ofNat_toNat]
    refine ⟨?_, ?_, ?_, ?_, ?_, ?_, ?_, ?_, ?_, ?_, ?_, ?_, ?_⟩
    all_goals exact exec_readReg_of_written hm (by simp [State.knobUnwritten]) rfl
  · exact exec_readReg_of_written hm (by simp [State.knobUnwritten, hd]) hv
  · exact exec_readReg_of_written hm (by simp [State.knobUnwritten, ht]) hv
  · exact exec_readReg_of_unwritten hm (.inl ⟨rfl, hd⟩)
  · exact exec_readReg_of_unwritten hm (.inr ⟨rfl, ht⟩)
  · exact (exec_readReg_of_ne_status hr s).trans (State.whenReady_uninit hm _)
  · obtain rfl := eq_initialise_of_exec hm ht
    have hrate : u.rate = 0x41200000 := by
      obtain ⟨-, -, -, -, hexample⟩ := setTimeWritesTheRate
      exact (hexample s.initialise u rfl hmax).1 hu
    have hready : u.mode = .ready := congrArg State.mode (eq_setTime_of_exec rfl (by decide) hu)
    exact exec_readReg_of_written hready (by simp [State.knobUnwritten]) (congrArg some hrate)

end Sys2Proof.Machine
end

section
/-! SUPPORT. Fault entry by cases (60_exceptions R122): what a command and a step do to FAULT_CAUSE and to HALTED, that
each of them ends in a next state, and STATUS as a number. -/

namespace Sys2Proof.Machine

/-! ## What UNINIT faults -/

/-- In UNINIT only INIT and READ_REG 0x00 raise no NOT_INITIALIZED (R123). -/
theorem exec_of_uninit {i : Instr} {s : State} (hm : s.mode = .uninit) (hinit : ∀ p a, i ≠ .init p a)
    (hi : i ≠ .readReg .status) : exec i s = .next (s.raiseFault .notInitialized) := by
  cases i with
  | init p a => exact absurd rfl (hinit p a)
  | setParamTime raw => exact State.whenReady_uninit hm _
  | setParamDepth raw => exact State.whenReady_uninit hm _
  | setParamNone pidx raw => exact State.whenReady_uninit hm _
  | process frames => exact State.whenReady_uninit hm _
  | readReg reg =>
    have hr : reg ≠ .status := fun h => hi (congrArg Instr.readReg h)
    exact (exec_readReg_of_ne_status hr s).trans (State.whenReady_uninit hm _)

theorem exec_init_faultCause {p a : Word} {s t : State} (h : exec (.init p a) s = .next t) :
    t.faultCause = s.faultCause := by
  rcases execInit_cases (p := p) (a := a) h with ⟨-, rfl⟩ | ⟨-, rfl⟩
  · rfl
  · rfl

/-! ## Every command and every step ends in a next state -/

theorem State.whenReady_next (s run : State) : ∃ t, s.whenReady run = .next t := by
  unfold whenReady
  split
  · exact ⟨_, rfl⟩
  · exact ⟨_, rfl⟩
  · exact ⟨_, rfl⟩

theorem exec_next (i : Instr) (s : State) : ∃ t, exec i s = .next t := by
  cases i with
  | init p a =>
    by_cases hm : s.mode = .halted
    · exact ⟨_, exec_of_halted hm Instr.noConfusion⟩
    · exact ⟨_, exec_init_of_ne_halted hm p a⟩
  | setParamTime raw => exact s.whenReady_next _
  | setParamDepth raw => exact s.whenReady_next _
  | setParamNone pidx raw => exact s.whenReady_next _
  | process frames => exact s.whenReady_next _
  | readReg reg =>
    by_cases hr : reg = .status
    · subst hr
      exact ⟨_, exec_readReg_status s⟩
    · rw [exec_readReg_of_ne_status hr]
      exact s.whenReady_next _

/-! ## What writes FAULT_CAUSE and HALTED -/

/-- No fault separates the two states: FAULT_CAUSE is the same, and HALTED is neither entered nor left. -/
def State.SameFault (s t : State) : Prop := t.faultCause = s.faultCause ∧ (t.mode = .halted ↔ s.mode = .halted)

theorem State.SameFault.of_eq {s t : State} (hc : t.faultCause = s.faultCause) (hm : t.mode = s.mode) : s.SameFault t :=
  ⟨hc, by rw [hm]⟩

/-- A command keeps FAULT_CAUSE and HALTED, or it is fault entry and nothing else. -/
theorem exec_sameFault_or_raises {i : Instr} {s t : State} (h : exec i s = .next t) :
    s.SameFault t ∨ ∃ c, c ≠ .none ∧ s.mode ≠ .halted ∧ t = s.raiseFault c := by
  cases exec_effect h with
  | unchanged => exact .inl (.of_eq rfl rfl)
  | responds w => exact .inl (.of_eq rfl rfl)
  | faults c hc hm => exact .inr ⟨c, hc, hm, rfl⟩
  | initialises p a _ hm => exact .inl ⟨rfl, iff_of_false Mode.noConfusion hm⟩
  | setsTime raw _ _ _ => exact .inl (.of_eq rfl rfl)
  | setsDepth raw _ _ _ => exact .inl (.of_eq rfl rfl)
  | processes frames _ _ =>
    exact .inl (.of_eq (State.continueProcess_faultCause _) (State.continueProcess_mode _))

/-- The words on the command port are a command or an illegal header, and then `rest`. -/
def State.portLeaves (s : State) (rest : List Word) : Prop :=
  (∃ i, decodeCommand s.cmdPort = .command i rest) ∨ ∃ why, decodeCommand s.cmdPort = .illegal why rest

theorem activityOf_eq_take {d : Fetched} {i : Instr} {rest : List Word} (h : activityOf d = .take i rest) :
    d = .command i rest := by
  cases d with
  | command j ws => cases h; rfl
  | illegal why ws => cases h
  | incomplete => cases h

theorem activityOf_eq_takeIllegal {d : Fetched} {rest : List Word} (h : activityOf d = .takeIllegal rest) :
    ∃ why, d = .illegal why rest := by
  cases d with
  | command j ws => cases h
  | illegal why ws => cases h; exact ⟨why, rfl⟩
  | incomplete => cases h

theorem State.portLeaves_of_take {s : State} {i : Instr} {rest : List Word} (hm : s.mode ≠ .halted)
    (h : s.activity = .take i rest) : s.portLeaves rest := by
  obtain ⟨hf, ho⟩ := State.idle_of_take h
  exact .inl ⟨i, activityOf_eq_take ((State.activity_decodes hf ho hm).symm.trans h)⟩

theorem State.portLeaves_of_takeIllegal {s : State} {rest : List Word} (h : s.activity = .takeIllegal rest) :
    s.portLeaves rest := by
  obtain ⟨⟨hf, ho⟩, hm⟩ := State.idle_of_takeIllegal h
  exact .inr (activityOf_eq_takeIllegal ((State.activity_decodes hf ho hm).symm.trans h))

/-- A step that enters HALTED by recording `c`: no PROCESS is under way, and beside the words it takes nothing but
FAULT_CAUSE and MODE changes (R122, R127). -/
structure State.Raises (s : State) (c : FaultCause) (rest : List Word) (t : State) : Prop where
  cause : c ≠ .none
  mode : s.mode ≠ .halted
  idle : s.idle
  port : s.portLeaves rest
  eq : t = (s.took rest).raiseFault c

/-- A step keeps FAULT_CAUSE and HALTED, or it is fault entry behind the words it takes. -/
theorem step_sameFault_or_raises {s t : State} (h : step s = .next t) :
    s.SameFault t ∨ ∃ c rest, s.Raises c rest t := by
  rcases step_cases h with ⟨-, rfl⟩ | ⟨i, rest, ha, he⟩ | ⟨rest, ha, rfl⟩ | ⟨rest, -, rfl⟩ | ⟨-, rfl⟩
  · exact .inl (.of_eq s.continueProcess_faultCause s.continueProcess_mode)
  · rcases exec_sameFault_or_raises he with hsame | ⟨c, hc, hm, ht⟩
    · exact .inl hsame
    · exact .inr ⟨c, rest, hc, hm, State.idle_of_take ha, State.portLeaves_of_take hm ha, ht⟩
  · obtain ⟨hidle, hm⟩ := State.idle_of_takeIllegal ha
    exact .inr ⟨_, rest, FaultCause.noConfusion, hm, hidle, State.portLeaves_of_takeIllegal ha, rfl⟩
  · exact .inl (.of_eq rfl rfl)
  · exact .inl (.of_eq rfl rfl)

/-- HALTED is not left and no second cause is recorded in it (R128). -/
theorem step_halted {s t : State} (hm : s.mode = .halted) (h : step s = .next t) :
    t.mode = .halted ∧ t.faultCause = s.faultCause := by
  rcases step_sameFault_or_raises h with ⟨hc, hmode⟩ | ⟨c, rest, hr⟩
  · exact ⟨hmode.2 hm, hc⟩
  · exact absurd hm hr.mode

/-! ## One word in HALTED -/

theorem step_discard {s : State} {rest : List Word} (h : s.activity = .discard rest) : step s = .next (s.took rest) := by
  rw [step, h]

/-- In HALTED the word at the head of the port is READ_REG 0x00 or is discarded (R128). -/
theorem step_halted_word {s : State} {w : Word} {rest : List Word} (hm : s.mode = .halted) (hidle : s.idle)
    (hport : s.cmdPort = w :: rest) :
    step s = .next (if w = statusHeader then (s.took rest).respond s.status else s.took rest) := by
  obtain ⟨hf, ho⟩ := hidle
  have ha : s.activity = if w = statusHeader then .take (.readReg .status) rest else .discard rest := by
    rw [State.activity_halted hf ho hm, hport, haltedActivity]
  by_cases hw : w = statusHeader
  · rw [if_pos hw] at ha ⊢
    exact (step_take ha).trans (exec_readReg_status _)
  · rw [if_neg hw] at ha ⊢
    exact step_discard ha

/-! ## STATUS as a number -/

theorem State.flags_toNat (s : State) : s.flags.toNat =
    s.readyFlag.toNat + s.haltedFlag.toNat * 2 + s.tkw.toNat * 4 + s.dkw.toNat * 8 := by
  rw [flags]
  cases s.dkw <;> cases s.tkw <;> cases s.haltedFlag <;> cases s.readyFlag <;> rfl

/-- STATUS is the flags in its low digit and the cause code in the next (R36). -/
theorem State.status_toNat (s : State) : s.status.toNat = s.faultCause.code.toNat * 16 + s.flags.toNat := by
  have h : s.status = (0#24 ++ s.faultCause.code : BitVec (24 + 4)) ++ s.flags := rfl
  rw [h, BitVec.toNat_append, ← Nat.shiftLeft_add_eq_or_of_lt s.flags.isLt, Nat.shiftLeft_eq, BitVec.toNat_append,
    BitVec.toNat_zero, Nat.zero_shiftLeft, Nat.zero_or]

theorem State.status_toNat_of_halted {s : State} (hm : s.mode = .halted) :
    s.status.toNat = 2 + s.faultCause.code.toNat * 16 + s.tkw.toNat * 4 + s.dkw.toNat * 8 := by
  have hready : s.readyFlag = false := by simp [readyFlag, hm]
  have hhalted : s.haltedFlag = true := by simp [haltedFlag, hm]
  rw [State.status_toNat, State.flags_toNat, hready, hhalted, Bool.toNat_false, Bool.toNat_true]
  omega

end Sys2Proof.Machine
end

section
/-! PROOFS. The faults of 60_exceptions: NOT_INITIALIZED and UNWRITTEN_READ by command, fault entry by step, that nothing
else stops a step, and HALTED. -/

namespace Sys2Proof.Machine

/-- Settles O26: a step that enters HALTED or changes FAULT_CAUSE is fault entry behind the words it takes, which the
other kind of step contradicts. -/
theorem faultEntryWritesTwoRegisters : Obligations.FaultEntryWritesTwoRegisters := by
  intro s t h
  rcases step_sameFault_or_raises h with ⟨hc, hmode⟩ | ⟨c, rest, hcause, hm, ⟨hf, ho⟩, hport, rfl⟩
  · exact ⟨fun hm ht => absurd (hmode.1 ht) hm, fun hne => absurd hc hne⟩
  · exact ⟨fun _ _ => ⟨hcause, rest, hport, rfl⟩, fun _ => ⟨hm, rfl, hf, State.outputTaken_iff.1 ho⟩⟩

/-- Settles O24: the lifecycle guard faults in UNINIT; INIT and READ_REG 0x00 do not pass it. -/
theorem commandBeforeInitHalts : Obligations.CommandBeforeInitHalts := by
  refine ⟨fun i s hm hinit hi => exec_of_uninit hm hinit hi, fun p a s t h => exec_init_faultCause h, fun s t h => ?_⟩
  cases (exec_readReg_status s).symm.trans h
  rfl

/-- Settles O16: both knobs are unwritten while their flag is clear. -/
theorem unwrittenKnobReadHalts : Obligations.UnwrittenKnobReadHalts :=
  ⟨fun _ hm hd => exec_readReg_of_unwritten hm (.inl ⟨rfl, hd⟩),
    fun _ hm ht => exec_readReg_of_unwritten hm (.inr ⟨rfl, ht⟩)⟩

/-- Settles O10: of the core's activities only a command taken could answer otherwise, and no command does. -/
theorem everyStepHasANextState : Obligations.EveryStepHasANextState := by
  intro s
  cases ha : s.activity with
  | resume => exact ⟨_, step_resume (State.framesLeft_of_resume ha)⟩
  | take i rest =>
    rw [step_take ha]
    exact exec_next i _
  | takeIllegal rest => exact ⟨_, by rw [step, ha]⟩
  | discard rest => exact ⟨_, step_discard ha⟩
  | wait => exact ⟨_, step_wait ha⟩

/-- Settles O7: one word in HALTED, that no step leaves it, and STATUS there as a number. -/
theorem haltedCoreTakesWordsOneByOne : Obligations.HaltedCoreTakesWordsOneByOne := by
  refine ⟨fun s w rest hm hf ho hport => step_halted_word hm ⟨hf, ho⟩ hport, fun s t hm h => step_halted hm h,
    fun s hm => State.status_toNat_of_halted hm, fun s hm hc ht hd => BitVec.eq_of_toNat_eq ?_, fun s => rfl⟩
  rw [State.status_toNat_of_halted hm, hc, ht, hd]
  rfl

end Sys2Proof.Machine
end

section
/-! PROOFS. Power-on reset (70_reset_and_hazards R135, R138): the core right after it meets the invariants, waits with
empty ports and streams, and reads no register but STATUS. -/

namespace Sys2Proof

/-- The defaults make an ordinary configuration, whatever the OPEN values are: only R7 reads those. -/
theorem Config.ordinary_default : Config.default.ordinary = true := by
  have hrate : F32.isFinite Config.default.maxLfoRate = true := by decide
  have hsample : F32.ge Config.default.sampleRate F32.one = true := by decide
  have hsweep : Config.default.inSweep Config.default.initFrequency = true := by decide
  rw [ordinary, wellFormed_default, hrate, hsample, hsweep]
  rfl

namespace Machine

/-! ## The core right after power-on -/

/-- The model's reset state is a core powered on with the defaults and no table cell. -/
theorem State.reset_eq_boot : State.reset = State.boot Config.default [] := rfl

/-- What power-on answers is the core right after reset, with what its two checks pass. -/
theorem powerOn_eq_next {c : Config} {t : Memory} {s : State} (h : powerOn c t = .next s) :
    (c.wellFormed = true ∧ Memory.inRange t = true) ∧ s = State.boot c t := by
  by_cases hok : c.wellFormed = true ∧ Memory.inRange t = true
  · cases (powerOn_accepts hok).symm.trans h
    exact ⟨hok, rfl⟩
  · cases (powerOn_refuses hok).symm.trans h

/-- UNINIT with no cause, no frames, no flag and an empty output stream meets every lifecycle rule; the configuration and
the table meet R7 as far as they were checked. -/
theorem State.inv_boot {c : Config} {t : Memory} (h : c.wellFormed = true ∧ Memory.inRange t = true) :
    (State.boot c t).inv = true :=
  State.inv_iff.2
    { cause := ⟨fun _ => Mode.noConfusion, fun _ => rfl⟩
      frames := .inl rfl
      output := .inl rfl
      wrap := rfl
      flags := .inr ⟨rfl, rfl⟩
      timeKnob := rfl
      depthKnob := rfl
      config := Bool.and_eq_true_iff.2 h
      q := .inl Mode.noConfusion }

/-- The ranges of R41 bind only in READY, which power-on does not give. -/
theorem State.numericOk_boot (c : Config) (t : Memory) : (State.boot c t).numericOk = true := rfl

/-- Settles O51: the reset state and what power-on answers are both cores right after reset. -/
theorem invariantsHoldAtReset : Obligations.InvariantsHoldAtReset := by
  refine ⟨?_, ?_, Config.ordinary_default, Memory.wf_reset, fun c t s h => ?_⟩
  · rw [State.reset_eq_boot]
    exact State.inv_boot ⟨Config.wellFormed_default, rfl⟩
  · rw [State.reset_eq_boot]
    exact State.numericOk_boot _ _
  · obtain ⟨hok, rfl⟩ := powerOn_eq_next h
    exact ⟨State.inv_boot hok, State.numericOk_boot c t⟩

/-! ## Power-on reset of a running core -/

@[simp] theorem State.powerOnReset_mode (s : State) : s.powerOnReset.mode = .uninit := rfl
@[simp] theorem State.powerOnReset_cmdPort (s : State) : s.powerOnReset.cmdPort = [] := rfl
@[simp] theorem State.powerOnReset_table (s : State) : s.powerOnReset.table = s.table := rfl

/-- With nothing on its command port the core waits. -/
theorem State.activity_powerOnReset (s : State) : s.powerOnReset.activity = .wait := by
  have hm : s.powerOnReset.mode ≠ .halted := by simp
  rw [State.activity_decodes rfl rfl hm, State.powerOnReset_cmdPort]
  rfl

/-- Settles O52: the fields as reset writes them; the empty port makes the core wait, and UNINIT faults the reads. -/
theorem powerOnResetEmptiesTheCore : Obligations.PowerOnResetEmptiesTheCore := by
  refine ⟨fun s => ?_, fun s r hr => ?_, rfl, rfl, rfl, rfl, rfl, rfl, rfl, rfl⟩
  · exact ⟨rfl, rfl, rfl, rfl, rfl, rfl, rfl, rfl, rfl, State.memRead_eq_of_table s.powerOnReset_table,
      step_wait s.activity_powerOnReset⟩
  · have hstatus : Instr.readReg r ≠ .readReg .status := fun h => hr (Instr.readReg.inj h)
    exact exec_of_uninit s.powerOnReset_mode (fun _ _ => Instr.noConfusion) hstatus

end Machine
end Sys2Proof
end
